-- ==== Sys2Proof/Word.lean ====
section
/-! DEFINITION. The word types of the block: bytes of the buffers, 32-bit registers (R32), 64-bit counters and times
(R8, R111). Nothing here is signed (R9). -/

namespace Sys2Proof

/-- One byte of a buffer. -/
abbrev Byte := BitVec 8

/-- A 32-bit register, command word or SHA-1 word (R32, R140, R240). -/
abbrev Word := BitVec 32

/-- A 64-bit counter or time (R8). -/
abbrev DWord := BitVec 64

end Sys2Proof
end

