-- ==== Sys2Proof/Syntax.lean ====
section
/-! DEFINITION. The commands of the opcode map (R146), one constructor per row of spec/opcode_table.json. -/

namespace Sys2Proof

/-- TSRC, bit 8 of a command (R143): 0 is the current time, 1 the explicit argument TARG. -/
inductive TimeSrc where
  | now
  | arg
deriving DecidableEq, Repr

/-- TXTKEY, bit 9 of a command (R144): 0 takes the key from KEY, 1 from the Base32 text in TXT. -/
inductive KeySrc where
  | key
  | txt
deriving DecidableEq, Repr

/-- A command of the block. `digits` is the value of the 4-bit DIGITS field (R142) and `window` that of the 4-bit WINDOW
field (R145), each read as an unsigned number (R9). DESIGN CHOICE, safe: they are plain numbers, bounded by
`Instr.wellFormed`, and the decoder gives none that the field cannot hold (log 12). -/
inductive Instr where
  /-- Hash the message buffer (R258). -/
  | sha1
  /-- Keyed hash of the message buffer (R262). -/
  | hmac
  /-- Counter-based one-time code (R286). -/
  | hotp (digits : Nat)
  /-- Time-based one-time code (R312). -/
  | totp (digits : Nat) (tsrc : TimeSrc) (txtkey : KeySrc)
  /-- Check a candidate code against a window of counters (R316). -/
  | verify (digits : Nat) (tsrc : TimeSrc) (txtkey : KeySrc) (window : Nat)
  /-- Encode the key buffer as Base32 text (R210). -/
  | b32enc
  /-- Decode Base32 text into the key buffer (R220). -/
  | b32dec
  /-- Time to counter (R322). -/
  | ctrfor (tsrc : TimeSrc)
  /-- Remaining seconds in the current window (R325). -/
  | remsec (tsrc : TimeSrc)
  /-- Clear every secret-bearing and result register (R350). -/
  | zero
  /-- Complete with no effect (R354). -/
  | nop
deriving DecidableEq, Repr

end Sys2Proof
end

