-- ==== Sys2Proof/WellFormed.lean ====
section
/-! DEFINITION. Which command terms a command word can hold: DIGITS and WINDOW are 4-bit fields (R141). -/

namespace Sys2Proof

/-- A value of a 4-bit field of the command word (R142, R145). -/
def fitsNibble (n : Nat) : Bool := decide (n < 16)

/-- The command can be written as a command word (R141). An invalid DIGITS value is well-formed: the word is legal and the
command fails with INVALID_DIGITS (R147). -/
def Instr.wellFormed : Instr → Bool
  | .sha1 => true
  | .hmac => true
  | .hotp d => fitsNibble d
  | .totp d _ _ => fitsNibble d
  | .verify d _ _ w => fitsNibble d && fitsNibble w
  | .b32enc => true
  | .b32dec => true
  | .ctrfor _ => true
  | .remsec _ => true
  | .zero => true
  | .nop => true

end Sys2Proof
end

