-- ==== Sys2Proof/Decode.lean ====
section
/-! DEFINITION. The command word: its fields (R141), the opcode map (R146), which words are legal (R147, R148), the
decoder and the encoder. -/

namespace Sys2Proof

/-! ### Fields (R141) -/

/-- OP, bits [3:0]. -/
def cmdOp (w : Word) : BitVec 4 := w.extractLsb' 0 4

/-- DIGITS, bits [7:4]. -/
def cmdDigits (w : Word) : BitVec 4 := w.extractLsb' 4 4

/-- TSRC, bit [8] (R143). -/
def cmdTsrc (w : Word) : TimeSrc := if w.getLsbD 8 then .arg else .now

/-- TXTKEY, bit [9] (R144). -/
def cmdTxtkey (w : Word) : KeySrc := if w.getLsbD 9 then .txt else .key

/-- WINDOW, bits [13:10] (R145). -/
def cmdWindow (w : Word) : BitVec 4 := w.extractLsb' 10 4

/-! ### The opcode map (R146) -/

/-- One row of the opcode map: a word is of this row when `word & mask = value`. -/
structure OpRow where
  mnemonic : String
  value : Word
  mask : Word
deriving DecidableEq, Repr

/-- The opcode map of R146, row by row. -/
def opcodeMap : List OpRow :=
  [ { mnemonic := "SHA1", value := 0x00000001, mask := 0xFFFFFFFF },
    { mnemonic := "HMAC", value := 0x00000002, mask := 0xFFFFFFFF },
    { mnemonic := "HOTP", value := 0x00000003, mask := 0xFFFFFF0F },
    { mnemonic := "TOTP", value := 0x00000004, mask := 0xFFFFFC0F },
    { mnemonic := "VERIFY", value := 0x00000005, mask := 0xFFFFC00F },
    { mnemonic := "B32ENC", value := 0x00000006, mask := 0xFFFFFFFF },
    { mnemonic := "B32DEC", value := 0x00000007, mask := 0xFFFFFFFF },
    { mnemonic := "CTRFOR", value := 0x00000008, mask := 0xFFFFFEFF },
    { mnemonic := "REMSEC", value := 0x00000009, mask := 0xFFFFFEFF },
    { mnemonic := "ZERO", value := 0x0000000A, mask := 0xFFFFFFFF },
    { mnemonic := "NOP", value := 0x0000000F, mask := 0xFFFFFFFF } ]

/-- `w & mask = value` for one row. -/
def OpRow.matches (r : OpRow) (w : Word) : Bool := (w &&& r.mask) == r.value

/-- `legal(cmd)` of R147: some row of the opcode map matches. -/
def legal (w : Word) : Bool := opcodeMap.any fun r => r.matches w

/-! ### The decoder -/

/-- Why a word is no command. Both complete with ILLEGAL_CMD (R148). -/
inductive Reject where
  /-- OP 0x0 or 0xB to 0xE (R148). -/
  | reservedOp (op : Nat)
  /-- OP names a command, but a reserved bit or a field the command does not use is 1 (R147). -/
  | strayBits (op : Nat)
deriving DecidableEq, Repr

/-- The command OP names, with its operand fields read from the word (R140, R141, R153). -/
def commandOf (w : Word) : Except Reject Instr :=
  match (cmdOp w).toNat with
  | 0x1 => .ok .sha1
  | 0x2 => .ok .hmac
  | 0x3 => .ok (.hotp (cmdDigits w).toNat)
  | 0x4 => .ok (.totp (cmdDigits w).toNat (cmdTsrc w) (cmdTxtkey w))
  | 0x5 => .ok (.verify (cmdDigits w).toNat (cmdTsrc w) (cmdTxtkey w) (cmdWindow w).toNat)
  | 0x6 => .ok .b32enc
  | 0x7 => .ok .b32dec
  | 0x8 => .ok (.ctrfor (cmdTsrc w))
  | 0x9 => .ok (.remsec (cmdTsrc w))
  | 0xA => .ok .zero
  | 0xF => .ok .nop
  | op => .error (.reservedOp op)

/-- The decoder (R140, R147, R148): total on every 32-bit word, rejecting by name. A decoder reads bits [3:0] to find the
command and checks the other bits against its row's mask. -/
def decode (w : Word) : Except Reject Instr :=
  match commandOf w with
  | .ok i => if legal w then .ok i else .error (.strayBits (cmdOp w).toNat)
  | .error r => .error r

/-! ### The encoder -/

/-- The bit of TSRC (R143). -/
def TimeSrc.bit : TimeSrc → BitVec 1
  | .now => 0
  | .arg => 1

/-- The bit of TXTKEY (R144). -/
def KeySrc.bit : KeySrc → BitVec 1
  | .key => 0
  | .txt => 1

/-- The five fields in their places, most significant first, above them the 18 reserved zeros (R141). -/
def packWord (op digits : Nat) (t : TimeSrc) (k : KeySrc) (window : Nat) : Word :=
  0#18 ++ BitVec.ofNat 4 window ++ k.bit ++ t.bit ++ BitVec.ofNat 4 digits ++ BitVec.ofNat 4 op

/-- The command word of a command; fields it does not use are 0 (R146). -/
def encode : Instr → Word
  | .sha1 => packWord 0x1 0 .now .key 0
  | .hmac => packWord 0x2 0 .now .key 0
  | .hotp d => packWord 0x3 d .now .key 0
  | .totp d t k => packWord 0x4 d t k 0
  | .verify d t k w => packWord 0x5 d t k w
  | .b32enc => packWord 0x6 0 .now .key 0
  | .b32dec => packWord 0x7 0 .now .key 0
  | .ctrfor t => packWord 0x8 0 t .key 0
  | .remsec t => packWord 0x9 0 t .key 0
  | .zero => packWord 0xA 0 .now .key 0
  | .nop => packWord 0xF 0 .now .key 0

/-! ### The host's view of the decoder -/

/-- The 32-bit command word whose low `nbits` bits are those of `w`, every bit above them 0. A command is one word, written
to CMD in one bus write (R140), so there is no order of words or bytes to lay out. -/
def tableWord (nbits w : Nat) : Word := BitVec.ofNat 32 (w % 2 ^ nbits)

/-- The command the decoder reads from a word numbered as spec/opcode_table.json numbers it (R141). -/
def decodeTableWord (nbits w : Nat) : Option Instr :=
  match decode (tableWord nbits w) with
  | .ok i => some i
  | .error _ => none

end Sys2Proof
end

