-- ==== Sys2Proof/Config.lean ====
section
/-! DEFINITION. The parameter values the spec fixes (R8) and the two constant registers (R41, R42). No free value stands
here: the spec leaves no value of a register or of a result open. Its open parameters LATENCY and TICK are where the
schedule of `State.inputs` puts completions and ticks (logs 1 to 3), and no rule depends on BASE (log 9). -/

namespace Sys2Proof.Config

/-- KEY_MAX, key buffer bytes (R8, R46). -/
def keyMax : Nat := 64

/-- MSG_MAX, message buffer bytes (R8, R47). -/
def msgMax : Nat := 64

/-- TXT_MAX, Base32 text buffer bytes (R8, R48). -/
def txtMax : Nat := 128

/-- CAND_MAX, candidate code bytes (R8, R53). -/
def candMax : Nat := 8

/-- STEP, the time step in seconds (R8, R320). -/
def timeStep : Nat := 30

/-- The default digit count (R8, R142). -/
def defaultDigits : Nat := 6

/-- The HMAC and SHA-1 block size B in bytes (R8, R250). -/
def blockSize : Nat := 64

/-- The digest size in bytes (R8, R247). -/
def digestSize : Nat := 20

/-- The constant of the ID register: "KC" above the source's revision 7 (R41). -/
def idValue : Word := 0x4B430007

/-- The constant of the PARAM register, built from its four fields: STEP [31:24], TXT_MAX [23:16], MSG_MAX [15:8],
KEY_MAX [7:0] (R42). -/
def paramValue : Word :=
  BitVec.ofNat 8 timeStep ++ BitVec.ofNat 8 txtMax ++ BitVec.ofNat 8 msgMax ++ BitVec.ofNat 8 keyMax

end Sys2Proof.Config
end

