-- ==== Sys2Proof/Machine/State.lean ====
section
/-! DEFINITION. The state of the block as plain data: every register of R40, the hidden state of R65, and two fields of
the model's own (`inputs`, `resp`); the reset state (R450); the reasons a step could stop. -/

namespace Sys2Proof.Machine

/-- The error codes of STATUS.ERR (R401). Codes 8 to 15 are never written, so they have no constructor. -/
inductive ErrCode where
  /-- 0: no error. -/
  | ok
  /-- 1: a reserved OP, or a 1 in a reserved or unused field. -/
  | illegalCmd
  /-- 2: a length register the command reads is above its maximum. -/
  | invalidLength
  /-- 3: DIGITS is not 0, 6, 7 or 8. -/
  | invalidDigits
  /-- 4: text outside the alphabet, or of a wrong length class or padding. -/
  | invalidEncoding
  /-- 5: the text key does not decode, or decodes to more than 64 bytes. -/
  | invalidSecret
  /-- 6: the key is empty. -/
  | invalidSecretLength
  /-- 7: the decoding is valid but longer than 64 bytes. -/
  | keyOverflow
deriving DecidableEq, Repr

/-- One event of the block (R7, R114). Bus accesses carry their size in bits and a byte offset into the 4 KiB window
(R100, R101). DESIGN CHOICE, safe: a write carries 32 bits of data whatever its size, since a write of another size has no
effect (R103, log 9). -/
inductive Event where
  /-- A bus master reads `bits` bits at offset `off`. -/
  | read (bits : Nat) (off : BitVec 12)
  /-- A bus master writes `bits` bits at offset `off`. -/
  | write (bits : Nat) (off : BitVec 12) (data : Word)
  /-- The platform delivers a tick of the time base (R421). -/
  | tick
  /-- The engine completes the command in flight (R151); not enabled, and so without effect, while BUSY = 0 (log 10). -/
  | complete
  /-- The platform delivers a reset (R450). -/
  | reset
deriving DecidableEq, Repr

/-- The response of a bus access (R101, R103). -/
inductive BusStatus where
  | okay
  | error
deriving DecidableEq, Repr

/-- What the master of a bus access gets back: the response, and the word of a read (R101, R103). -/
structure Response where
  status : BusStatus
  /-- The data of a read; a write returns none. -/
  data : Option Word
deriving DecidableEq, Repr

/-- Bytes by their window offset: strictly rising addresses, no entry equal to 0, which is what an unlisted byte reads
as (the reset contents, R450). `Memory.wf` of Machine/Ops.lean says so. -/
abbrev Memory := List Host.Cell

/-- The state of the block (R30 to R67). Registers that are constants (ID, PARAM) or computed on a read (NOW_REM, irq)
have no field. -/
structure State where
  /-- CMD_LATCH, the last accepted command word, which CMD reads back (R43, R65). -/
  cmdLatch : Word
  /-- STATUS.BUSY (R44). -/
  busy : Bool
  /-- STATUS.DONE (R44). -/
  done : Bool
  /-- STATUS.WIN (R44, R423). -/
  win : Bool
  /-- STATUS.DROP (R44, R106). -/
  drop : Bool
  /-- STATUS.ERR (R44, R401). -/
  err : ErrCode
  /-- STATUS.LASTOP (R44). -/
  lastop : BitVec 4
  /-- IE.DONE_IE (R45). -/
  doneIe : Bool
  /-- IE.WIN_IE (R45). -/
  winIe : Bool
  /-- IE.DROP_IE (R45). -/
  dropIe : Bool
  /-- KEYLEN (R46). -/
  keylen : BitVec 7
  /-- MSGLEN (R47). -/
  msglen : BitVec 7
  /-- TXTLEN (R48). -/
  txtlen : BitVec 8
  /-- CANDLEN (R53). -/
  candlen : BitVec 4
  /-- CTR, the pair CTR_HI, CTR_LO (R49). -/
  ctr : DWord
  /-- TARG, the pair TARG_HI, TARG_LO (R50). -/
  targ : DWord
  /-- TIME, the pair TIME_HI, TIME_LO (R51, R420). -/
  time : DWord
  /-- S_TIME, the time sampled at the accept (R65, R310). -/
  sTime : DWord
  /-- TIME_HI_SNAP (R65, R422). -/
  timeHiSnap : Word
  /-- TIME_LO_STAGE (R65, R422). -/
  timeLoStage : Word
  /-- CTR_OUT, the pair CTR_OUT_HI, CTR_OUT_LO (R55). -/
  ctrOut : DWord
  /-- REM (R56). -/
  rem : BitVec 5
  /-- TRUNC (R57). -/
  trunc : BitVec 31
  /-- CODE (R58). -/
  code : BitVec 27
  /-- RESULT.CDIG (R60). -/
  cdig : BitVec 4
  /-- RESULT.VMATCH (R60). -/
  vmatch : Bool
  /-- The byte buffers CAND, CODEA, DIGEST, KEY, MSG, TXT (R54, R59, R61 to R64), each byte at its window offset (R110). -/
  mem : Memory
  /-- The model's own: the events still to come, oldest first (R114). DESIGN CHOICE, safe (log 1). -/
  inputs : List Event
  /-- The model's own: the response of the last bus access (R101, R103). DESIGN CHOICE, safe (log 4). -/
  resp : Option Response
deriving DecidableEq, Repr

/-- The machine stops with a fault: never. The block raises no trap, exception or abort (R400); every error is a
completion code, and an unsupported access gets a bus response (R103). So no one raises a fault, and the type is empty. -/
inductive Fault
deriving DecidableEq, Repr

/-- Why a step has no meaning. -/
inductive Refusal where
  /-- Raised only by an arm of `exec` whose command has no meaning yet; safe. No arm does. -/
  | notModelled (mnemonic : String)
deriving DecidableEq, Repr

/-- The three outcomes of a step of this machine. -/
abbrev Outcome := Host.Outcome State Fault Refusal

/-- The state right after reset (R450, R451): every register 0, no command in flight, nothing pending, nothing enabled.
The spec leaves no register unspecified. The last two fields are the model's own. DESIGN CHOICE, safe: no event to come
(log 1) and no bus response yet (log 4). -/
def State.reset : State where
  cmdLatch := 0
  busy := false
  done := false
  win := false
  drop := false
  err := .ok
  lastop := 0
  doneIe := false
  winIe := false
  dropIe := false
  keylen := 0
  msglen := 0
  txtlen := 0
  candlen := 0
  ctr := 0
  targ := 0
  time := 0
  sTime := 0
  timeHiSnap := 0
  timeLoStage := 0
  ctrOut := 0
  rem := 0
  trunc := 0
  code := 0
  cdig := 0
  vmatch := false
  mem := []
  inputs := []
  resp := none

end Sys2Proof.Machine
end

