-- ==== Sys2Proof/Machine/Ops.lean ====
section
/-! DEFINITION. The named operations over the buffers and the registers: bytes of the buffers, the accept of a command
(R150), and its completion (R151, R152), which is the one shared operation by which every command ends, in success or in
error. The block raises no trap and returns from none (R400, R415, R416): recording the error code at completion is all
that stands in a trap entry's place. -/

namespace Sys2Proof.Machine

/-! ### Byte order -/

/-- `bytes_n(v)`: the n-byte big-endian encoding of v (R10). -/
def bytesBE (n v : Nat) : List Byte :=
  (List.range n).map fun i => BitVec.ofNat 8 (v / 256 ^ (n - 1 - i))

/-- `le32(b0 b1 b2 b3)`: the word whose lanes are the four bytes (R110, R157). -/
def le32 (b0 b1 b2 b3 : Byte) : Word := b3 ++ b2 ++ b1 ++ b0

/-- The four lanes of a word, lowest first (R110). -/
def lanes (v : Word) : List Byte :=
  [v.extractLsb' 0 8, v.extractLsb' 8 8, v.extractLsb' 16 8, v.extractLsb' 24 8]

/-- The _LO half of a 64-bit register value (R111; DEDUCED, safe: log 6). -/
def loHalf (v : DWord) : Word := v.extractLsb' 0 32

/-- The _HI half of a 64-bit register value (R111). -/
def hiHalf (v : DWord) : Word := v.extractLsb' 32 32

/-! ### Memory: the bytes of the buffers -/

/-- The byte at an address; an unlisted address reads 0 (R450; DEDUCED, safe: log 5). -/
def Memory.read : Memory → Nat → Byte
  | [], _ => 0
  | c :: m, a => if c.1 = a then c.2 else Memory.read m a

/-- Take the entry of an address out. -/
def Memory.erase (m : Memory) (a : Nat) : Memory := m.filter fun c => c.1 != a

/-- Put an entry before the first one of a higher address. -/
def Memory.insert : Memory → Nat → Byte → Memory
  | [], a, b => [(a, b)]
  | c :: m, a, b => if a < c.1 then (a, b) :: c :: m else c :: Memory.insert m a b

/-- Write one byte; writing 0, which an unlisted address reads as, takes the entry out. -/
def Memory.write (m : Memory) (a : Nat) (b : Byte) : Memory :=
  if b = 0 then Memory.erase m a else Memory.insert (Memory.erase m a) a b

/-- Write the `n` bytes from address `a` on: those of the list, then zeros. -/
def Memory.fill (m : Memory) (a : Nat) : Nat → List Byte → Memory
  | 0, _ => m
  | n + 1, bs => Memory.write (Memory.fill m (a + 1) n bs.tail) a (bs.headD 0)

/-- The canonical form: addresses strictly rising, no entry equal to what an unlisted address reads as. -/
abbrev Memory.wf (m : Memory) : Prop :=
  List.Pairwise (fun c d : Host.Cell => c.1 < d.1) m ∧ ∀ c ∈ m, c.2 ≠ 0

/-! ### The byte buffers -/

/-- The byte buffers of R110. -/
inductive Buffer where
  | cand
  | codea
  | digest
  | key
  | msg
  | txt
deriving DecidableEq, Repr

/-- The window offset of a buffer's first word (R40). -/
def bufBase : Buffer → Nat
  | .cand => 0x040
  | .codea => 0x05C
  | .digest => 0x080
  | .key => 0x100
  | .msg => 0x140
  | .txt => 0x180

/-- A buffer's size in bytes (R54, R59, R61 to R64). -/
def bufSize : Buffer → Nat
  | .cand => Config.candMax
  | .codea => 8
  | .digest => Config.digestSize
  | .key => Config.keyMax
  | .msg => Config.msgMax
  | .txt => Config.txtMax

/-- Every buffer, in the order of the map. -/
def allBuffers : List Buffer := [.cand, .codea, .digest, .key, .msg, .txt]

/-- An offset lies in a buffer's words (R40). -/
def inBuffer (off : Nat) (b : Buffer) : Bool := decide (bufBase b ≤ off ∧ off < bufBase b + bufSize b)

/-- Write 0 to every byte of every buffer: a byte that is 0 has no entry, so the entries go (R350). -/
def Memory.clearBuffers (m : Memory) : Memory := m.filter fun c => !allBuffers.any (inBuffer c.1)

/-- Write a whole buffer: the bytes of the list from byte 0 on, and 0 in every byte after them (R210, R220, R258, R284). -/
def Memory.setBuf (m : Memory) (b : Buffer) (bs : List Byte) : Memory := Memory.fill m (bufBase b) (bufSize b) bs

/-- Byte i of a buffer (R110: lane i mod 4 of word i div 4, so the byte at window offset base + i). -/
def State.byte (s : State) (b : Buffer) (i : Nat) : Byte := Memory.read s.mem (bufBase b + i)

/-- Bytes 0 to n-1 of a buffer (R10). -/
def State.bytes (s : State) (b : Buffer) (n : Nat) : List Byte := (List.range n).map (s.byte b)

/-- Word j of a buffer as the bus sees it (R110). -/
def State.bufWord (s : State) (b : Buffer) (j : Nat) : Word :=
  le32 (s.byte b (4 * j)) (s.byte b (4 * j + 1)) (s.byte b (4 * j + 2)) (s.byte b (4 * j + 3))

/-- Write word j of a buffer: its four bytes at once (R110). -/
def State.setBufWord (s : State) (b : Buffer) (j : Nat) (v : Word) : State :=
  { s with mem := Memory.fill s.mem (bufBase b + 4 * j) 4 (lanes v) }

/-- Write a whole buffer of the state (R210, R220, R258, R284). -/
def State.setBuf (s : State) (b : Buffer) (bs : List Byte) : State := { s with mem := Memory.setBuf s.mem b bs }

/-! ### The life of a command -/

/-- The time the accept of a word samples: TIME where its TSRC bit is 0, TARG where it is 1 (R143, R150, R310). -/
def State.sampledTime (s : State) (w : Word) : DWord := if w.getLsbD 8 then s.targ else s.time

/-- Accept of a command word, BUSY being 0 (R150): nothing but the latch, S_TIME and BUSY changes. -/
def State.accept (s : State) (w : Word) : State :=
  { s with cmdLatch := w, sTime := s.sampledTime w, busy := true }

/-- The registers every completion writes: ERR, LASTOP from the latched word, DONE and BUSY (R151; DEDUCED, safe:
log 8). -/
def State.finish (s : State) (e : ErrCode) : State :=
  { s with err := e, lastop := s.cmdLatch.extractLsb' 0 4, done := true, busy := false }

/-- What a command's result function gives: the state with the listed writes made, or an error code (R12, R151). -/
abbrev Result := Except ErrCode State

/-- Completion of a command (R151, R152): on success its writes and ERR = 0, on failure the error code and no other
write; LASTOP, DONE and BUSY in both cases. -/
def State.commit (s : State) (r : Result) : State :=
  match r with
  | .ok t => t.finish .ok
  | .error e => s.finish e

/-- A dropped write: the register keeps its value, DROP is set (R106). -/
def State.dropWrite (s : State) : State := { s with drop := true }

end Sys2Proof.Machine
end

