-- ==== Sys2Proof/Machine/Flags.lean ====
section
/-! DEFINITION. The flags: STATUS and its write-one-to-clear bits (R44), IE (R45), RESULT (R60), the error codes (R401)
and the interrupt output (R410, R411). -/

namespace Sys2Proof.Machine

/-- The numeric code of an error (R401). -/
def errBits : ErrCode → BitVec 4
  | .ok => 0
  | .illegalCmd => 1
  | .invalidLength => 2
  | .invalidDigits => 3
  | .invalidEncoding => 4
  | .invalidSecret => 5
  | .invalidSecretLength => 6
  | .keyOverflow => 7

/-- One flag as one bit. -/
def flagBit (b : Bool) : BitVec 1 := BitVec.ofBool b

/-- STATUS as a read returns it: LASTOP [15:12], ERR [11:8], DROP [3], WIN [2], DONE [1], BUSY [0], all other bits 0
(R44). -/
def State.statusWord (s : State) : Word :=
  0#16 ++ s.lastop ++ errBits s.err ++ 0#4 ++ flagBit s.drop ++ flagBit s.win ++ flagBit s.done ++ flagBit s.busy

/-- A write of STATUS: a 1 in bit 1, 2 or 3 clears DONE, WIN or DROP; nothing else changes (R44). -/
def State.clearFlags (s : State) (v : Word) : State :=
  { s with
    done := s.done && !v.getLsbD 1
    win := s.win && !v.getLsbD 2
    drop := s.drop && !v.getLsbD 3 }

/-- IE as a read returns it (R45). -/
def State.ieWord (s : State) : Word :=
  0#28 ++ flagBit s.dropIe ++ flagBit s.winIe ++ flagBit s.doneIe ++ 0#1

/-- A write of IE: bits 1 to 3 are taken, the others ignored (R45). -/
def State.setIe (s : State) (v : Word) : State :=
  { s with doneIe := v.getLsbD 1, winIe := v.getLsbD 2, dropIe := v.getLsbD 3 }

/-- RESULT as a read returns it: VMATCH [8], CDIG [3:0], all other bits 0 (R60). -/
def State.resultWord (s : State) : Word := 0#23 ++ flagBit s.vmatch ++ 0#4 ++ s.cdig

/-- The interrupt output, a function of STATUS and IE at every instant (R410). -/
def State.irq (s : State) : Bool := (s.done && s.doneIe) || (s.win && s.winIe) || (s.drop && s.dropIe)

end Sys2Proof.Machine
end

