-- ==== Sys2Proof/Machine/TimeBase.lean ====
section
/-! DEFINITION. The time logic: time to counter (R320), the countdown (R321), the live countdown (R426) and the tick
(R421, R423). -/

namespace Sys2Proof.Machine

/-- `counter_for(T)` (R320). -/
def counterFor (t : DWord) : Nat := t.toNat / Config.timeStep

/-- `remaining(T)` (R321). -/
def remaining (t : DWord) : Nat := Config.timeStep - t.toNat % Config.timeStep

/-- NOW_REM, computed from the current TIME (R52, R426). -/
def State.nowRem (s : State) : Nat := remaining s.time

/-- One tick: TIME advances by 1 modulo 2^64, and WIN is set where the new TIME is a multiple of 30 (R421, R423). -/
def State.ticked (s : State) : State :=
  { s with
    time := s.time + 1
    win := s.win || decide ((s.time + 1).toNat % Config.timeStep = 0) }

end Sys2Proof.Machine
end

