-- ==== Sys2Proof/Machine/Bus.lean ====
section
/-! DEFINITION. The bus: the register map (R40), reads and their one side effect (R101, R102, R422), writes with the lock
of a running command (R105, R106, R108), unsupported accesses (R103), and the events from outside the engine (R7). -/

namespace Sys2Proof.Machine

/-! ### The register map -/

/-- A register of the map (R40), or a reserved offset (R108). -/
inductive Reg where
  | id
  | param
  | cmd
  | status
  | ie
  | keylen
  | msglen
  | txtlen
  | ctrLo
  | ctrHi
  | targLo
  | targHi
  | timeLo
  | timeHi
  | nowRem
  | candlen
  | ctrOutLo
  | ctrOutHi
  | rem
  | trunc
  | code
  | result
  /-- Word j of a byte buffer: CANDj, CODEAj, DIGESTj, KEYj, MSGj, TXTj. -/
  | buf (b : Buffer) (j : Nat)
  | reserved
deriving DecidableEq, Repr

/-- The registers that stand alone, by offset (R40). -/
def regMap : List (Nat × Reg) :=
  [ (0x000, .id), (0x004, .param), (0x008, .cmd), (0x00C, .status), (0x010, .ie),
    (0x014, .keylen), (0x018, .msglen), (0x01C, .txtlen),
    (0x020, .ctrLo), (0x024, .ctrHi), (0x028, .targLo), (0x02C, .targHi),
    (0x030, .timeLo), (0x034, .timeHi), (0x038, .nowRem), (0x03C, .candlen),
    (0x048, .ctrOutLo), (0x04C, .ctrOutHi), (0x050, .rem), (0x054, .trunc), (0x058, .code), (0x064, .result) ]

/-- The register at an aligned offset (R40, R107, R108). -/
def regAt (off : Nat) : Reg :=
  match regMap.lookup off with
  | some r => r
  | none =>
    match allBuffers.find? (inBuffer off) with
    | some b => .buf b ((off - bufBase b) / 4)
    | none => .reserved

/-- The offset of a register; none for `reserved`, which is many (R40, R157). -/
def regOffset : Reg → Option Nat
  | .buf b j => some (bufBase b + 4 * j)
  | r => (regMap.find? fun e => e.2 == r).map Prod.fst

/-- A buffer whose words are operand registers (R33); CODEA and DIGEST are outputs (R34). -/
def bufIsOperand : Buffer → Bool
  | .cand => true
  | .codea => false
  | .digest => false
  | .key => true
  | .msg => true
  | .txt => true

/-- The operand registers (R33). -/
def Reg.isOperand : Reg → Bool
  | .keylen => true
  | .msglen => true
  | .txtlen => true
  | .ctrLo => true
  | .ctrHi => true
  | .targLo => true
  | .targHi => true
  | .candlen => true
  | .buf b _ => bufIsOperand b
  | .id => false
  | .param => false
  | .cmd => false
  | .status => false
  | .ie => false
  | .timeLo => false
  | .timeHi => false
  | .nowRem => false
  | .ctrOutLo => false
  | .ctrOutHi => false
  | .rem => false
  | .trunc => false
  | .code => false
  | .result => false
  | .reserved => false

/-- The output registers (R34). -/
def Reg.isOutput : Reg → Bool
  | .ctrOutLo => true
  | .ctrOutHi => true
  | .rem => true
  | .trunc => true
  | .code => true
  | .result => true
  | .buf b _ => !bufIsOperand b
  | .id => false
  | .param => false
  | .cmd => false
  | .status => false
  | .ie => false
  | .keylen => false
  | .msglen => false
  | .txtlen => false
  | .ctrLo => false
  | .ctrHi => false
  | .targLo => false
  | .targHi => false
  | .timeLo => false
  | .timeHi => false
  | .nowRem => false
  | .candlen => false
  | .reserved => false

/-- The registers whose writes are dropped while BUSY: CMD and the operand registers (R106). -/
def Reg.isLocked (r : Reg) : Bool := r == .cmd || r.isOperand

/-! ### Reads -/

/-- The value of a register at a read: undefined bits read 0 (R32), a reserved offset reads 0 (R108), TIME_HI reads the
snapshot (R422). -/
def State.regValue (s : State) : Reg → Word
  | .id => Config.idValue
  | .param => Config.paramValue
  | .cmd => s.cmdLatch
  | .status => s.statusWord
  | .ie => s.ieWord
  | .keylen => s.keylen.setWidth 32
  | .msglen => s.msglen.setWidth 32
  | .txtlen => s.txtlen.setWidth 32
  | .ctrLo => loHalf s.ctr
  | .ctrHi => hiHalf s.ctr
  | .targLo => loHalf s.targ
  | .targHi => hiHalf s.targ
  | .timeLo => loHalf s.time
  | .timeHi => s.timeHiSnap
  | .nowRem => BitVec.ofNat 32 s.nowRem
  | .candlen => s.candlen.setWidth 32
  | .ctrOutLo => loHalf s.ctrOut
  | .ctrOutHi => hiHalf s.ctrOut
  | .rem => s.rem.setWidth 32
  | .trunc => s.trunc.setWidth 32
  | .code => s.code.setWidth 32
  | .result => s.resultWord
  | .buf b j => s.bufWord b j
  | .reserved => 0

/-- The one side effect of a read: TIME_LO latches the high half of TIME (R102, R422). -/
def State.afterRead (s : State) (r : Reg) : State :=
  if r = .timeLo then { s with timeHiSnap := hiHalf s.time } else s

/-! ### Writes -/

/-- A write of a register that is not dropped: CMD accepts the word as a command (R43, R150); an undefined bit ignores the
write (R32); a read-only register and a reserved offset ignore all of it (R105, R108). -/
def State.writeReg (s : State) (r : Reg) (v : Word) : State :=
  match r with
  | .cmd => s.accept v
  | .status => s.clearFlags v
  | .ie => s.setIe v
  | .keylen => { s with keylen := v.setWidth 7 }
  | .msglen => { s with msglen := v.setWidth 7 }
  | .txtlen => { s with txtlen := v.setWidth 8 }
  | .ctrLo => { s with ctr := hiHalf s.ctr ++ v }
  | .ctrHi => { s with ctr := v ++ loHalf s.ctr }
  | .targLo => { s with targ := hiHalf s.targ ++ v }
  | .targHi => { s with targ := v ++ loHalf s.targ }
  | .timeLo => { s with timeLoStage := v }
  | .timeHi => { s with time := v ++ s.timeLoStage }
  | .candlen => { s with candlen := v.setWidth 4 }
  | .buf b j => if bufIsOperand b then s.setBufWord b j v else s
  | .id => s
  | .param => s
  | .nowRem => s
  | .ctrOutLo => s
  | .ctrOutHi => s
  | .rem => s
  | .trunc => s
  | .code => s
  | .result => s
  | .reserved => s

/-- A write of a register: dropped where the register is locked and a command is in flight (R106). -/
def State.busWriteReg (s : State) (r : Reg) (v : Word) : State :=
  if r.isLocked && s.busy then s.dropWrite else s.writeReg r v

/-! ### Accesses -/

/-- An access the block supports: 32 bits at a 4-byte-aligned offset (R101, R103). -/
def supported (bits : Nat) (off : BitVec 12) : Bool := decide (bits = 32 ∧ off.toNat % 4 = 0)

/-- A bus read (R101, R102); an unsupported one has no effect and gets ERROR and the data 0 (R103). -/
def State.busRead (s : State) (bits : Nat) (off : BitVec 12) : State :=
  if supported bits off then
    { s.afterRead (regAt off.toNat) with
      resp := some { status := .okay, data := some (s.regValue (regAt off.toNat)) } }
  else { s with resp := some { status := .error, data := some 0 } }

/-- A bus write (R101); an unsupported one has no effect and gets ERROR (R103). -/
def State.busWrite (s : State) (bits : Nat) (off : BitVec 12) (v : Word) : State :=
  if supported bits off then
    { s.busWriteReg (regAt off.toNat) v with resp := some { status := .okay, data := none } }
  else { s with resp := some { status := .error, data := none } }

/-! ### The events from outside the engine -/

/-- Reset: every register and all hidden state at its reset value, the command in flight abandoned (R450). DESIGN CHOICE,
safe: the events still to come stay, and no bus response is left (log 14). -/
def State.afterReset (s : State) : State := { State.reset with inputs := s.inputs }

/-- The effect of an event that is not a completion (R7, R114); `complete` itself has none here, it is the engine's and
Machine/Step.lean runs it. -/
def State.perform (s : State) : Event → State
  | .read bits off => s.busRead bits off
  | .write bits off v => s.busWrite bits off v
  | .tick => s.ticked
  | .reset => s.afterReset
  | .complete => s

end Sys2Proof.Machine
end

