-- ==== Sys2Proof/Machine/Codec.lean ====
section
/-! DEFINITION. The Base32 codec on byte strings: the alphabet (R200 to R202), the encoding (R203) and the decoding
(R205 to R207). -/

namespace Sys2Proof.Machine

/-- The pad character "=" (R201). -/
def padChar : Byte := 0x3D

/-- `ENC(v)` for a 5-bit value v: "A" to "Z", then "2" to "7" (R200). -/
def b32Char (v : Nat) : Byte :=
  if v < 26 then BitVec.ofNat 8 (0x41 + v) else BitVec.ofNat 8 (0x32 + (v - 26))

/-- `DEC(x)`: the 5-bit value of a character, lower case accepted, every other byte invalid (R202, R207). -/
def b32Value (x : Byte) : Option Nat :=
  let n := x.toNat
  if 0x41 ≤ n ∧ n ≤ 0x5A then some (n - 0x41)
  else if 0x61 ≤ n ∧ n ≤ 0x7A then some (n - 0x61)
  else if 0x32 ≤ n ∧ n ≤ 0x37 then some (n - 0x32 + 26)
  else none

/-- The `n` bits of a number, most significant first (R203, R205). -/
def bitsOf (n v : Nat) : List Bool := (List.range n).map fun i => v.testBit (n - 1 - i)

/-- The number a bit string writes, most significant bit first (R203, R205). -/
def numOf (bits : List Bool) : Nat := bits.foldl (fun acc b => 2 * acc + b.toNat) 0

/-- `bits[n*j .. n*j + n)`: group j of a bit string cut in groups of n (R203, R205). -/
def group (n : Nat) (bits : List Bool) (j : Nat) : List Bool := (bits.drop (n * j)).take n

/-- The number of data characters of the encoding of n bytes: ceil(8n / 5) (R203). -/
def b32DataLen (n : Nat) : Nat := (8 * n + 4) / 5

/-- `b32encode(b)` (R203). -/
def b32encode (b : List Byte) : List Byte :=
  let n := b.length
  let q := b32DataLen n
  let bits := b.flatMap (fun x => bitsOf 8 x.toNat) ++ List.replicate (5 * q - 8 * n) false
  (List.range q).map (fun j => b32Char (numOf (group 5 bits j))) ++ List.replicate ((8 - q % 8) % 8) padChar

/-- The length of the longest run of "=" at the end of a string (R205). -/
def padRun (s : List Byte) : Nat := (s.reverse.takeWhile fun x => x == padChar).length

/-- The values of a string of data characters, if every one of them is in the alphabet (R205). -/
def b32Values : List Byte → Option (List Nat)
  | [] => some []
  | x :: xs =>
    match b32Value x, b32Values xs with
    | some v, some vs => some (v :: vs)
    | _, _ => none

/-- `PAD(r)`: the pad count due after q data characters with q mod 8 = r; none for the residues 1, 3 and 6, which no
encoding has (R205). -/
def padDue : Nat → Option Nat
  | 0 => some 0
  | 2 => some 6
  | 4 => some 4
  | 5 => some 3
  | 7 => some 1
  | _ => none

/-- The bytes of a list of 5-bit values: 8 bits each, the bits left over at the end dropped (R205, R206). -/
def b32Bytes (vs : List Nat) : List Byte :=
  let bits := vs.flatMap (bitsOf 5)
  (List.range (5 * vs.length / 8)).map fun i => BitVec.ofNat 8 (numOf (group 8 bits i))

/-- `b32decode(s)`: none where the rule says invalid (R205). -/
def b32decode (s : List Byte) : Option (List Byte) :=
  let p := padRun s
  let q := s.length - p
  match b32Values (s.take q) with
  | none => none
  | some vs =>
    match padDue (q % 8) with
    | none => none
    | some due => if p ≠ 0 ∧ p ≠ due then none else some (b32Bytes vs)

end Sys2Proof.Machine
end

