-- ==== Sys2Proof/Machine/Operands.lean ====
section
/-! DEFINITION. The operand forms of the commands: the digit count (R142), the byte strings in the buffers under their
lengths (R46 to R48, R53), the length checks (R401, R403), and the two sources of a key (R144, R311). The time source is
sampled at the accept (`State.sampledTime`, R310). -/

namespace Sys2Proof.Machine

/-- `digits(D)`: the digit count the DIGITS field selects, none where it is invalid (R142). -/
def digitsOf (field : Nat) : Option Nat :=
  if field = 0 then some Config.defaultDigits
  else if field = 6 ∨ field = 7 ∨ field = 8 then some field
  else none

/-- The key bytes `KEY[0..KEYLEN)` (R62). -/
def State.keyBytes (s : State) : List Byte := s.bytes .key s.keylen.toNat

/-- The message `MSG[0..MSGLEN)` (R63). -/
def State.msgBytes (s : State) : List Byte := s.bytes .msg s.msglen.toNat

/-- The text `TXT[0..TXTLEN)` (R64). -/
def State.txtBytes (s : State) : List Byte := s.bytes .txt s.txtlen.toNat

/-- The candidate `CAND[0..CANDLEN)` (R54). -/
def State.candBytes (s : State) : List Byte := s.bytes .cand s.candlen.toNat

/-- KEYLEN is above KEY_MAX (R46, R401). -/
def State.keyTooLong (s : State) : Bool := decide (Config.keyMax < s.keylen.toNat)

/-- MSGLEN is above MSG_MAX (R47, R401). -/
def State.msgTooLong (s : State) : Bool := decide (Config.msgMax < s.msglen.toNat)

/-- TXTLEN is above TXT_MAX (R48, R401). -/
def State.txtTooLong (s : State) : Bool := decide (Config.txtMax < s.txtlen.toNat)

/-- CANDLEN is above CAND_MAX (R53, R401). -/
def State.candTooLong (s : State) : Bool := decide (Config.candMax < s.candlen.toNat)

/-- The length register of the key source a command reads is above its maximum (R312, R316). -/
def State.sourceTooLong (s : State) : KeySrc → Bool
  | .key => s.keyTooLong
  | .txt => s.txtTooLong

/-- `key_of(cmd)`: the raw key bytes, or the Base32 decoding of the text, which fails INVALID_SECRET where it does not
decode or is longer than KEY_MAX (R311). -/
def State.keyOf (s : State) : KeySrc → Except ErrCode (List Byte)
  | .key => .ok s.keyBytes
  | .txt =>
    match b32decode s.txtBytes with
    | none => .error .invalidSecret
    | some r => if Config.keyMax < r.length then .error .invalidSecret else .ok r

end Sys2Proof.Machine
end

