-- ==== Sys2Proof/Machine/Base32.lean ====
section
/-! DEFINITION. The Base32 commands B32ENC (R210, R211) and B32DEC (R220, R221). -/

namespace Sys2Proof.Machine

/-- The outputs of B32ENC: the text with zeros after it, and its length (R210). -/
def State.setText (s : State) (txt : List Byte) : State :=
  { s with mem := Memory.setBuf s.mem .txt txt, txtlen := BitVec.ofNat 8 txt.length }

/-- The outputs of B32DEC: the key with zeros after it, and its length (R220). -/
def State.setKey (s : State) (k : List Byte) : State :=
  { s with mem := Memory.setBuf s.mem .key k, keylen := BitVec.ofNat 7 k.length }

/-- The result function of B32ENC (R210). -/
def b32encResult (s : State) : Result :=
  if s.keyTooLong then .error .invalidLength else .ok (s.setText (b32encode s.keyBytes))

/-- B32ENC: encode the key buffer as Base32 text (R210). -/
def execB32enc (s : State) : Host.Outcome State Fault Refusal := .next (s.commit (b32encResult s))

/-- The result function of B32DEC (R220). -/
def b32decResult (s : State) : Result :=
  if s.txtTooLong then .error .invalidLength
  else
    match b32decode s.txtBytes with
    | none => .error .invalidEncoding
    | some r => if Config.keyMax < r.length then .error .keyOverflow else .ok (s.setKey r)

/-- B32DEC: decode Base32 text into the key buffer (R220). -/
def execB32dec (s : State) : Host.Outcome State Fault Refusal := .next (s.commit (b32decResult s))

end Sys2Proof.Machine
end

