-- ==== Sys2Proof/Machine/Control.lean ====
section
/-! DEFINITION. The control commands ZERO (R350, R351) and NOP (R354), and the completion of a word that is no command
(R148). -/

namespace Sys2Proof.Machine

/-- Clear every secret-bearing and result register (R350). -/
def State.zeroed (s : State) : State :=
  { s with
    mem := Memory.clearBuffers s.mem
    keylen := 0
    msglen := 0
    txtlen := 0
    candlen := 0
    ctr := 0
    targ := 0
    trunc := 0
    code := 0
    ctrOut := 0
    rem := 0
    cdig := 0
    vmatch := false }

/-- ZERO: clear every secret-bearing and result register (R350). -/
def execZero (s : State) : Host.Outcome State Fault Refusal := .next (s.commit (.ok s.zeroed))

/-- NOP: complete with no effect (R354). -/
def execNop (s : State) : Host.Outcome State Fault Refusal := .next (s.commit (.ok s))

/-- The completion of an illegal command: ERR = ILLEGAL_CMD and no other effect (R148, R153). -/
def execIllegal (s : State) : Host.Outcome State Fault Refusal := .next (s.commit (.error .illegalCmd))

end Sys2Proof.Machine
end

