-- ==== Sys2Proof/Machine/Sha1.lean ====
section
/-! DEFINITION. SHA-1 (R240 to R248) and HMAC-SHA1 (R250 to R252) on byte strings. -/

namespace Sys2Proof.Machine

/-- `ROTL^n(x)` (R11). -/
def rotl (n : Nat) (x : Word) : Word := x.rotateLeft n

/-- The number of zero bytes of the padding: the least k with (L + 1 + k) mod 64 = 56 (R241). -/
def sha1PadZeros (len : Nat) : Nat := (119 - len % 64) % 64

/-- The padded message (R241). -/
def sha1Pad (m : List Byte) : List Byte :=
  m ++ [0x80] ++ List.replicate (sha1PadZeros m.length) 0 ++ bytesBE 8 (8 * m.length)

/-- The number of 64-byte blocks of the padded message (R241). -/
def sha1Blocks (len : Nat) : Nat := (len + 8) / 64 + 1

/-- The first `n` 64-byte blocks of a padded message (R242). -/
def splitBlocks : Nat → List Byte → List (List Byte)
  | 0, _ => []
  | n + 1, m => m.take Config.blockSize :: splitBlocks n (m.drop Config.blockSize)

/-- Word t of a block, big-endian (R112, R242). -/
def blockWord (blk : List Byte) (t : Nat) : Word :=
  blk.getD (4 * t) 0 ++ blk.getD (4 * t + 1) 0 ++ blk.getD (4 * t + 2) 0 ++ blk.getD (4 * t + 3) 0

/-- `n` more words of a message schedule kept latest first: with W[t-1] in front, W[t-3], W[t-8], W[t-14] and W[t-16]
stand at places 2, 7, 13 and 15 (R245). -/
def extendSchedule : Nat → List Word → List Word
  | 0, ws => ws
  | n + 1, ws =>
    extendSchedule n (rotl 1 (ws.getD 2 0 ^^^ ws.getD 7 0 ^^^ ws.getD 13 0 ^^^ ws.getD 15 0) :: ws)

/-- The message schedule W[0] to W[79] of a block (R245). -/
def schedule (blk : List Byte) : List Word :=
  (extendSchedule 64 ((List.range 16).map (blockWord blk)).reverse).reverse

/-- The five words of a hash value, H0 to H4, or of the working variables a to e (R243, R246). -/
structure HashState where
  a : Word
  b : Word
  c : Word
  d : Word
  e : Word
deriving DecidableEq, Repr

/-- The initial hash value (R243). -/
def sha1Init : HashState :=
  { a := 0x67452301, b := 0xEFCDAB89, c := 0x98BADCFE, d := 0x10325476, e := 0xC3D2E1F0 }

/-- The round function f_t (R244). -/
def roundF (t : Nat) (b c d : Word) : Word :=
  if t < 20 then (b &&& c) ||| (~~~b &&& d)
  else if t < 40 then b ^^^ c ^^^ d
  else if t < 60 then (b &&& c) ||| (b &&& d) ||| (c &&& d)
  else b ^^^ c ^^^ d

/-- The round constant K_t (R244). -/
def roundK (t : Nat) : Word :=
  if t < 20 then 0x5A827999
  else if t < 40 then 0x6ED9EBA1
  else if t < 60 then 0x8F1BBCDC
  else 0xCA62C1D6

/-- Round t of the compression, with schedule word w (R246). -/
def sha1Round (t : Nat) (w : Word) (h : HashState) : HashState :=
  { a := rotl 5 h.a + roundF t h.b h.c h.d + h.e + roundK t + w
    b := h.a
    c := rotl 30 h.b
    d := h.c
    e := h.d }

/-- The rounds from t on, one for each schedule word (R246). -/
def sha1Rounds : Nat → List Word → HashState → HashState
  | _, [], h => h
  | t, w :: ws, h => sha1Rounds (t + 1) ws (sha1Round t w h)

/-- The compression of one block (R246). -/
def compress (h : HashState) (blk : List Byte) : HashState :=
  let r := sha1Rounds 0 (schedule blk) h
  { a := h.a + r.a, b := h.b + r.b, c := h.c + r.c, d := h.d + r.d, e := h.e + r.e }

/-- The hash value after the last block (R246). -/
def sha1Hash (m : List Byte) : HashState :=
  (splitBlocks (sha1Blocks m.length) (sha1Pad m)).foldl compress sha1Init

/-- The digest: each word big-endian, H0 first (R247). -/
def HashState.bytes (h : HashState) : List Byte :=
  bytesBE 4 h.a.toNat ++ bytesBE 4 h.b.toNat ++ bytesBE 4 h.c.toNat ++ bytesBE 4 h.d.toNat ++ bytesBE 4 h.e.toNat

/-- `SHA1(m)` (R240 to R247). -/
def sha1 (m : List Byte) : List Byte := (sha1Hash m).bytes

/-- K0 of HMAC: the key and zeros up to 64 bytes (R250). No key is longer than 64 bytes (R251). -/
def hmacKeyBlock (k : List Byte) : List Byte := k ++ List.replicate (Config.blockSize - k.length) 0

/-- Bytewise exclusive or with one repeated byte (R250). -/
def xorPad (p : Byte) (k0 : List Byte) : List Byte := k0.map fun x => x ^^^ p

/-- `HMAC_SHA1(K, m)` (R250). -/
def hmacSha1 (k m : List Byte) : List Byte :=
  sha1 (xorPad 0x5C (hmacKeyBlock k) ++ sha1 (xorPad 0x36 (hmacKeyBlock k) ++ m))

end Sys2Proof.Machine
end

