-- ==== Sys2Proof/Machine/Digest.lean ====
section
/-! DEFINITION. The hash commands SHA1 (R258, R259) and HMAC (R262, R263). -/

namespace Sys2Proof.Machine

/-- The result function of SHA1 (R258). -/
def sha1Result (s : State) : Result :=
  if s.msgTooLong then .error .invalidLength
  else .ok (s.setBuf .digest (sha1 s.msgBytes))

/-- SHA1: hash the message buffer (R258). -/
def execSha1 (s : State) : Host.Outcome State Fault Refusal := .next (s.commit (sha1Result s))

/-- The result function of HMAC (R262). -/
def hmacResult (s : State) : Result :=
  if s.keyTooLong || s.msgTooLong then .error .invalidLength
  else if s.keylen.toNat = 0 then .error .invalidSecretLength
  else .ok (s.setBuf .digest (hmacSha1 s.keyBytes s.msgBytes))

/-- HMAC: keyed hash of the message buffer (R262). -/
def execHmac (s : State) : Host.Outcome State Fault Refusal := .next (s.commit (hmacResult s))

end Sys2Proof.Machine
end

