-- ==== Sys2Proof/Machine/Hotp.lean ====
section
/-! DEFINITION. The HOTP function with its dynamic truncation (R280 to R285) and the command HOTP (R286, R287). -/

namespace Sys2Proof.Machine

/-- The truncation offset: the low 4 bits of the last digest byte (R281). -/
def truncOffset (h : List Byte) : Nat := (h.getD 19 0 &&& 0x0F).toNat

/-- The 31-bit truncated value p of a digest (R282). -/
def truncValue (h : List Byte) : Nat :=
  let o := truncOffset h
  (h.getD o 0 &&& 0x7F).toNat <<< 24 ||| (h.getD (o + 1) 0).toNat <<< 16 |||
    (h.getD (o + 2) 0).toNat <<< 8 ||| (h.getD (o + 3) 0).toNat

/-- `ascii_d(code)`: the d decimal digits of a code, most significant first (R284). -/
def asciiDigits (d code : Nat) : List Byte :=
  (List.range d).map fun j => BitVec.ofNat 8 (0x30 + code / 10 ^ (d - 1 - j) % 10)

/-- What the HOTP function returns: digest h, truncated value p, code, and its ASCII form (R285). -/
structure HotpOut where
  digest : List Byte
  p : Nat
  code : Nat
  ascii : List Byte
deriving DecidableEq, Repr

/-- `hotp_core(K, C, d)` (R285): the HMAC of the counter as 8 bytes big-endian (R280, R112), truncated and reduced. -/
def hotpCore (k : List Byte) (c d : Nat) : HotpOut :=
  let h := hmacSha1 k (bytesBE 8 c)
  let p := truncValue h
  { digest := h, p := p, code := p % 10 ^ d, ascii := asciiDigits d (p % 10 ^ d) }

/-- The code outputs that HOTP and TOTP write: DIGEST, TRUNC, CODE, CODEA with zeros after its d digits, and CDIG (R286,
R312). -/
def State.setCode (s : State) (o : HotpOut) (d : Nat) : State :=
  { s with
    mem := Memory.setBuf (Memory.setBuf s.mem .digest o.digest) .codea o.ascii
    trunc := BitVec.ofNat 31 o.p
    code := BitVec.ofNat 27 o.code
    cdig := BitVec.ofNat 4 d }

/-- The result function of HOTP (R286). -/
def hotpResult (digits : Nat) (s : State) : Result :=
  if s.keyTooLong then .error .invalidLength
  else if s.keylen.toNat = 0 then .error .invalidSecretLength
  else
    match digitsOf digits with
    | none => .error .invalidDigits
    | some d => .ok (s.setCode (hotpCore s.keyBytes s.ctr.toNat d) d)

/-- HOTP: counter-based one-time code from the key buffer (R286). -/
def execHotp (digits : Nat) (s : State) : Host.Outcome State Fault Refusal := .next (s.commit (hotpResult digits s))

end Sys2Proof.Machine
end

