-- ==== Sys2Proof/Machine/Totp.lean ====
section
/-! DEFINITION. The time commands TOTP (R312, R313), VERIFY (R316 to R318), CTRFOR (R322, R323) and REMSEC (R325, R326).
The time each uses is S_TIME, which the accept sampled from TIME or TARG as TSRC says (R150, R310): the result functions
read S_TIME alone, so the TSRC field of the command has done its work before they run. -/

namespace Sys2Proof.Machine

/-! ### TOTP -/

/-- The outputs of TOTP: the code outputs, and CTR_OUT and REM from the same time as the code (R312). -/
def State.setTotp (s : State) (o : HotpOut) (d : Nat) : State :=
  { s with
    mem := (s.setCode o d).mem
    trunc := (s.setCode o d).trunc
    code := (s.setCode o d).code
    cdig := (s.setCode o d).cdig
    ctrOut := BitVec.ofNat 64 (counterFor s.sTime)
    rem := BitVec.ofNat 5 (remaining s.sTime) }

/-- The result function of TOTP (R312). -/
def totpResult (digits : Nat) (txtkey : KeySrc) (s : State) : Result :=
  if s.sourceTooLong txtkey then .error .invalidLength
  else
    match s.keyOf txtkey with
    | .error e => .error e
    | .ok k =>
      if k.length = 0 then .error .invalidSecretLength
      else
        match digitsOf digits with
        | none => .error .invalidDigits
        | some d => .ok (s.setTotp (hotpCore k (counterFor s.sTime) d) d)

/-- TOTP: time-based one-time code (R312). -/
def execTotp (digits : Nat) (txtkey : KeySrc) (s : State) : Host.Outcome State Fault Refusal :=
  .next (s.commit (totpResult digits txtkey s))

/-! ### VERIFY -/

/-- `ct_eq(a, b)`: same length and same bytes (R317). -/
def ctEq (a b : List Byte) : Bool :=
  decide (b.length = a.length) && (List.range a.length).all fun i => a.getD i 0 == b.getD i 0

/-- The candidate against the code of one counter k, a signed integer; a counter below 0 is skipped (R316). -/
def matchAt (key : List Byte) (d : Nat) (cand : List Byte) (k : Int) : Bool :=
  if 0 ≤ k then ctEq (hotpCore key k.toNat d).ascii cand else false

/-- The OR over the counters c - w + j for j = 0 to 2w, every one of them evaluated (R316). -/
def windowMatch (key : List Byte) (d : Nat) (cand : List Byte) (c w : Nat) : Bool :=
  (List.range (2 * w + 1)).foldl (fun m j => m || matchAt key d cand ((c : Int) - w + j)) false

/-- The outputs of VERIFY: the verdict and the current counter, nothing else (R316). -/
def State.setVerdict (s : State) (m : Bool) : State :=
  { s with vmatch := m, ctrOut := BitVec.ofNat 64 (counterFor s.sTime) }

/-- The result function of VERIFY (R316). -/
def verifyResult (digits : Nat) (txtkey : KeySrc) (window : Nat) (s : State) : Result :=
  if s.sourceTooLong txtkey || s.candTooLong then .error .invalidLength
  else
    match s.keyOf txtkey with
    | .error e => .error e
    | .ok k =>
      if k.length = 0 then .error .invalidSecretLength
      else
        match digitsOf digits with
        | none => .error .invalidDigits
        | some d => .ok (s.setVerdict (windowMatch k d s.candBytes (counterFor s.sTime) window))

/-- VERIFY: check a candidate code against a window of counters (R316). -/
def execVerify (digits : Nat) (txtkey : KeySrc) (window : Nat) (s : State) : Host.Outcome State Fault Refusal :=
  .next (s.commit (verifyResult digits txtkey window s))

/-! ### CTRFOR and REMSEC -/

/-- The result function of CTRFOR (R322). -/
def ctrforResult (s : State) : Result := .ok { s with ctrOut := BitVec.ofNat 64 (counterFor s.sTime) }

/-- CTRFOR: time to counter (R322). -/
def execCtrfor (s : State) : Host.Outcome State Fault Refusal := .next (s.commit (ctrforResult s))

/-- The result function of REMSEC (R325). -/
def remsecResult (s : State) : Result := .ok { s with rem := BitVec.ofNat 5 (remaining s.sTime) }

/-- REMSEC: remaining seconds in the current window (R325). -/
def execRemsec (s : State) : Host.Outcome State Fault Refusal := .next (s.commit (remsecResult s))

end Sys2Proof.Machine
end

