-- ==== Sys2Proof/Machine/Dispatch.lean ====
section
/-! DEFINITION. The completion of each command (R153): one direct call of its meaning per constructor. TSRC is no argument of a
meaning: it chose S_TIME at the accept (R150, R310). -/

namespace Sys2Proof.Machine

-- The completion event of the command `i` in the state `s` (R151, R153).
def exec (i : Instr) (s : State) : Host.Outcome State Fault Refusal :=
  match i with
  | .sha1 => Sys2Proof.Machine.execSha1 s
  | .hmac => Sys2Proof.Machine.execHmac s
  | .hotp digits => Sys2Proof.Machine.execHotp digits s
  | .totp digits _ txtkey => Sys2Proof.Machine.execTotp digits txtkey s
  | .verify digits _ txtkey window => Sys2Proof.Machine.execVerify digits txtkey window s
  | .b32enc => Sys2Proof.Machine.execB32enc s
  | .b32dec => Sys2Proof.Machine.execB32dec s
  | .ctrfor _ => Sys2Proof.Machine.execCtrfor s
  | .remsec _ => Sys2Proof.Machine.execRemsec s
  | .zero => Sys2Proof.Machine.execZero s
  | .nop => Sys2Proof.Machine.execNop s

end Sys2Proof.Machine
end

