-- ==== Sys2Proof/Machine/Step.lean ====
section
/-! DEFINITION. One step of the block: the next event of the total order (R114), and the word the next step runs. -/

namespace Sys2Proof.Machine

/-- The completion event (R151, R153): the latched word is decoded and its command run; a word that is no command
completes with ILLEGAL_CMD (R148). -/
def completion (s : State) : Host.Outcome State Fault Refusal :=
  match decode s.cmdLatch with
  | .ok i => exec i s
  | .error _ => execIllegal s

/-- One event (R114). The oldest event to come is taken and performed; a completion is enabled only while BUSY = 1. With
no event to come, the engine completes the command in flight (R151, R470; log 2), and an idle block keeps all state
(R444). -/
def step (s : State) : Host.Outcome State Fault Refusal :=
  match s.inputs with
  | [] => if s.busy then completion s else .next s
  | .complete :: es => if s.busy then completion { s with inputs := es } else .next { s with inputs := es }
  | e :: es => .next (State.perform { s with inputs := es } e)

/-- The state in which the very next step runs the command word `w`: the word has been accepted (latched, its time
sampled, BUSY set, R150), and the next event is its completion (log 7). -/
def State.withFetchWord (s : State) (nbits w : Nat) : State :=
  { s.accept (tableWord nbits w) with inputs := .complete :: s.inputs }

end Sys2Proof.Machine
end

