-- ==== Sys2Proof/Machine/Assembler.lean ====
section
/-! DEFINITION. The assembler syntax of bus programs (R156) and its pseudo-instructions (R157), as functions from
statements to bus accesses, and from those to the events of the block. The syntax is the spec's notation for what a bus
master does; no meaning of a command reads it. -/

namespace Sys2Proof.Machine

/-- A command statement with its operands, each of which may be left out (R156). -/
inductive AsmOp where
  | sha1
  | hmac
  | hotp (d : Option Nat)
  | totp (d : Option Nat) (t : Option TimeSrc) (k : Option KeySrc)
  | verify (d : Option Nat) (w : Option Nat) (t : Option TimeSrc) (k : Option KeySrc)
  | b32enc
  | b32dec
  | ctrfor (t : Option TimeSrc)
  | remsec (t : Option TimeSrc)
  | zero
  | nop
deriving DecidableEq, Repr

/-- The DIGITS field of `d=N`: 0 when left out; N outside 6 to 8 is refused (R156). -/
def asmDigits : Option Nat → Option Nat
  | none => some 0
  | some n => if 6 ≤ n ∧ n ≤ 8 then some n else none

/-- The WINDOW field of `w=N`: 1 when left out, the source's "window=1" (R156). DESIGN CHOICE, safe: an N that the 4-bit
field cannot hold is refused (log 13). -/
def asmWindow : Option Nat → Option Nat
  | none => some 1
  | some n => if n < 16 then some n else none

/-- The command a command statement issues, with the defaults of its operands; none where the assembler refuses it
(R156). -/
def AsmOp.instr : AsmOp → Option Instr
  | .sha1 => some .sha1
  | .hmac => some .hmac
  | .hotp d => (asmDigits d).map .hotp
  | .totp d t k => (asmDigits d).map fun n => .totp n (t.getD .now) (k.getD .key)
  | .verify d w t k =>
    match asmDigits d, asmWindow w with
    | some n, some m => some (.verify n (t.getD .now) (k.getD .key) m)
    | _, _ => none
  | .b32enc => some .b32enc
  | .b32dec => some .b32dec
  | .ctrfor t => some (.ctrfor (t.getD .now))
  | .remsec t => some (.remsec (t.getD .now))
  | .zero => some .zero
  | .nop => some .nop

/-- What a statement does on the bus: a read, a write, or the polling loop of `wait` (R156, R157). -/
inductive Access where
  | rd (r : Reg)
  | wr (r : Reg) (v : Word)
  /-- Read STATUS until its bit 0 (BUSY) is 0. -/
  | untilIdle
deriving DecidableEq, Repr

/-- A statement of a bus program (R156, R157). -/
inductive Stmt where
  | wr (r : Reg) (v : Word)
  | rd (r : Reg)
  | command (op : AsmOp)
  | wait
  | run (op : AsmOp)
  | wrbuf (b : Buffer) (s : List Byte)
  | setkey (s : List Byte)
  | setmsg (s : List Byte)
  | settxt (s : List Byte)
  | setcand (s : List Byte)
  | setctr (v : DWord)
  | settarg (v : DWord)
  | settime (v : DWord)
deriving DecidableEq, Repr

/-- `wrbuf BUF, s`: the words of the string in order, bytes past its end taken as 0 (R157). -/
def wrbufAccesses (b : Buffer) (s : List Byte) : List Access :=
  (List.range ((s.length + 3) / 4)).map fun j =>
    .wr (.buf b j) (le32 (s.getD (4 * j) 0) (s.getD (4 * j + 1) 0) (s.getD (4 * j + 2) 0) (s.getD (4 * j + 3) 0))

/-- A buffer's string and its length register (R157). -/
def setAccesses (b : Buffer) (len : Reg) (s : List Byte) : List Access :=
  wrbufAccesses b s ++ [.wr len (BitVec.ofNat 32 s.length)]

/-- The write of CMD a command statement stands for (R156). -/
def AsmOp.accesses (op : AsmOp) : Option (List Access) := op.instr.map fun i => [.wr .cmd (encode i)]

/-- The expansion of a statement; none where the assembler refuses it (R156, R157). -/
def Stmt.expand : Stmt → Option (List Access)
  | .wr r v => some [.wr r v]
  | .rd r => some [.rd r]
  | .command op => op.accesses
  | .wait => some [.untilIdle]
  | .run op => op.accesses.map fun as => as ++ [.untilIdle]
  | .wrbuf b s => some (wrbufAccesses b s)
  | .setkey s => some (setAccesses .key .keylen s)
  | .setmsg s => some (setAccesses .msg .msglen s)
  | .settxt s => some (setAccesses .txt .txtlen s)
  | .setcand s => some (setAccesses .cand .candlen s)
  | .setctr v => some [.wr .ctrLo (loHalf v), .wr .ctrHi (hiHalf v)]
  | .settarg v => some [.wr .targLo (loHalf v), .wr .targHi (hiHalf v)]
  | .settime v => some [.wr .timeLo (loHalf v), .wr .timeHi (hiHalf v)]

/-- The window offset of a register as a bus access gives it (R40). -/
def accessOffset (r : Reg) : BitVec 12 := BitVec.ofNat 12 ((regOffset r).getD 0x068)

/-- The events of an access. The loop of `wait` is `polls` reads of STATUS that find BUSY = 1, the completion, and the
read that finds BUSY = 0; `polls` stands for the open parameter LATENCY (R157, R470). -/
def Access.events (polls : Nat) : Access → List Event
  | .rd r => [.read 32 (accessOffset r)]
  | .wr r v => [.write 32 (accessOffset r) v]
  | .untilIdle => List.replicate polls (.read 32 0x00C) ++ [.complete, .read 32 0x00C]

/-- The events of a bus program; none where the assembler refuses a statement (R156, R157). -/
def programEvents (polls : Nat) : List Stmt → Option (List Event)
  | [] => some []
  | st :: rest =>
    match st.expand, programEvents polls rest with
    | some as, some es => some (as.flatMap (Access.events polls) ++ es)
    | _, _ => none

end Sys2Proof.Machine
end

