-- ==== Sys2Proof/Safety.lean ====
section
/-! DEFINITION. The terms claims are stated in: the invariant of the block, what two states share, which events keep the
rules of 70_reset_and_hazards.md section 3, the events of one clock cycle (R432), and what a row of the opcode map
decodes. Nothing in the machine reads this file. -/

namespace Sys2Proof.Machine

/-! ### The invariant -/

/-- Every listed byte lies in a byte buffer of the map (R40). -/
abbrev Memory.inBuffers (m : Memory) : Prop := ∀ c ∈ m, allBuffers.any (inBuffer c.1) = true

/-- CODE, CODEA and TRUNC belong to the digit count in CDIG: with no code computed since reset or ZERO they are all 0, and
otherwise CODE is TRUNC mod 10^CDIG and CODEA its ASCII form with zeros after it (R58 to R60, R283, R284). -/
abbrev State.codesAgree (s : State) : Prop :=
  (s.cdig = 0 ∧ s.trunc = 0 ∧ s.code = 0 ∧ s.bytes .codea 8 = List.replicate 8 0) ∨
  ((s.cdig = 6 ∨ s.cdig = 7 ∨ s.cdig = 8) ∧ s.code.toNat = s.trunc.toNat % 10 ^ s.cdig.toNat ∧
    s.bytes .codea 8 = asciiDigits s.cdig.toNat s.code.toNat ++ List.replicate (8 - s.cdig.toNat) 0)

/-- The invariant of the block: the buffers are in canonical form and inside the map; REM is 0 to 30 (R56); CTR_OUT is a
counter some time has (R55, R320); the code outputs agree. -/
abbrev State.Inv (s : State) : Prop :=
  Memory.wf s.mem ∧ Memory.inBuffers s.mem ∧ s.rem.toNat ≤ 30 ∧ s.ctrOut.toNat ≤ 614891469123651720 ∧ s.codesAgree

/-! ### What two states share -/

/-- Every byte outside the listed buffers reads the same. -/
def sameBytesOutside (bs : List Buffer) (s t : State) : Prop :=
  ∀ a, (∀ b ∈ bs, inBuffer a b = false) → Memory.read t.mem a = Memory.read s.mem a

/-- A buffer reads the same, byte for byte. -/
def sameBuffer (b : Buffer) (s t : State) : Prop := ∀ i < bufSize b, t.byte b i = s.byte b i

/-- The operand registers (R33) are the same. -/
def sameOperands (s t : State) : Prop :=
  t.keylen = s.keylen ∧ t.msglen = s.msglen ∧ t.txtlen = s.txtlen ∧ t.candlen = s.candlen ∧ t.ctr = s.ctr ∧
    t.targ = s.targ ∧ ∀ b, bufIsOperand b = true → sameBuffer b s t

/-- The output registers (R34) are the same. -/
def sameOutputs (s t : State) : Prop :=
  t.ctrOut = s.ctrOut ∧ t.rem = s.rem ∧ t.trunc = s.trunc ∧ t.code = s.code ∧ t.cdig = s.cdig ∧
    t.vmatch = s.vmatch ∧ ∀ b, bufIsOperand b = false → sameBuffer b s t

/-- What two runs of one command wrote: the same value in both, or in each what was there before (R66). -/
def sameOrKept {α : Type} (f : State → α) (s t u v : State) : Prop := f v = f u ∨ (f u = f s ∧ f v = f t)

/-! ### How a command ends -/

/-- The state with a completion's record made: ERR, LASTOP from the latched word, DONE = 1, BUSY = 0 (R151). -/
def State.recorded (s : State) (e : ErrCode) : State :=
  { s with err := e, lastop := s.cmdLatch.extractLsb' 0 4, done := true, busy := false }

/-- The command fails with error code `e` and writes nothing but the record (R152). -/
def failsWith (i : Instr) (s : State) (e : ErrCode) : Prop := exec i s = .next (s.recorded e)

/-! ### Operand forms -/

/-- The DIGITS field `field` selects the digit count `d` (R142). -/
def selectsDigits (field d : Nat) : Prop := (field = 0 ∧ d = 6) ∨ (field = d ∧ (d = 6 ∨ d = 7 ∨ d = 8))

/-- The DIGITS field selects no digit count (R142). -/
def invalidDigits (field : Nat) : Prop := field ≠ 0 ∧ field ≠ 6 ∧ field ≠ 7 ∧ field ≠ 8

/-- The length register of the key source is above its maximum (R401). -/
def sourceLengthInvalid (s : State) : KeySrc → Prop
  | .key => 64 < s.keylen.toNat
  | .txt => 128 < s.txtlen.toNat

/-- The text key does not decode, or decodes to more than 64 bytes (R311). -/
def sourceUndecodable (s : State) (src : KeySrc) : Prop :=
  src = .txt ∧ s.txtlen.toNat ≤ 128 ∧ ∀ k, b32decode (s.bytes .txt s.txtlen.toNat) = some k → 64 < k.length

/-- The key a command takes from the source (R311). -/
def sourceGives (s : State) (src : KeySrc) (k : List Byte) : Prop :=
  match src with
  | .key => s.keylen.toNat ≤ 64 ∧ k = s.bytes .key s.keylen.toNat
  | .txt => s.txtlen.toNat ≤ 128 ∧ b32decode (s.bytes .txt s.txtlen.toNat) = some k ∧ k.length ≤ 64

/-- Offsets of CMD and the operand registers, which a running command locks (R33, R40, R106). -/
def lockedOffset (off : Nat) : Prop :=
  off % 4 = 0 ∧ (off = 0x008 ∨ (0x014 ≤ off ∧ off ≤ 0x02C) ∨ (0x03C ≤ off ∧ off ≤ 0x044) ∨
    (0x100 ≤ off ∧ off ≤ 0x1FC))

/-- Offsets that hold no register (R108). -/
def reservedOffset (off : Nat) : Prop :=
  off % 4 = 0 ∧ ((0x068 ≤ off ∧ off ≤ 0x07C) ∨ (0x094 ≤ off ∧ off ≤ 0x0FC) ∨ (0x200 ≤ off ∧ off ≤ 0xFFC))

/-- The response of a write that is honoured, ignored or dropped (R101, R105, R106, R108). -/
def okayWrite : Option Response := some { status := .okay, data := none }

/-- The response of a supported read (R101). -/
def okayRead (v : Word) : Option Response := some { status := .okay, data := some v }

/-! ### Rows of the opcode map -/

/-- Every word with this OP: it is the command `build` makes of its fields where the bits under the row's mask are the OP
alone, and illegal where any other bit under the mask is 1 (R146, R147). -/
def rowDecodes (op : BitVec 4) (mask : Word) (build : Word → Instr) : Prop :=
  ∀ w : Word, cmdOp w = op →
    decode w = if w &&& mask = op.setWidth 32 then .ok (build w) else .error (.strayBits op.toNat)

/-! ### Careful masters (70_reset_and_hazards.md section 3) -/

/-- The event keeps the rules a bus master must respect: only supported accesses (R103), no write of CMD or of an operand
register while BUSY (R465), no read of an output register while BUSY (R466). -/
def carefulEvent (s : State) : Event → Bool
  | .read bits off => supported bits off && !((regAt off.toNat).isOutput && s.busy)
  | .write bits off _ => supported bits off && !((regAt off.toNat).isLocked && s.busy)
  | .tick => true
  | .complete => true
  | .reset => true

/-- The outputs are those of the last command: it has completed, and without an error (R466). -/
def resultsValid (s : State) : Bool := !s.busy && s.err == .ok

/-! ### Command statements of the assembler -/

/-- The digit count of `d=N` is one the assembler refuses: it is there, and outside 6 to 8 (R156). -/
def asmDigitsRefused (d : Option Nat) : Prop := ∃ n, d = some n ∧ (n < 6 ∨ 8 < n)

/-- The TSRC bit of `t=now` or `t=arg`: 0 for `now` and where it is left out (R156). -/
def asmTimeBit (t : Option TimeSrc) : Nat := if t = some .arg then 1 else 0

/-- The TXTKEY bit of `k=key` or `k=txt`: 0 for `key` and where it is left out (R156). -/
def asmKeyBit (k : Option KeySrc) : Nat := if k = some .txt then 1 else 0

/-- The one write of CMD with this word (R156). -/
def writesCmd (w : Nat) : Option (List Access) := some [.wr .cmd (BitVec.ofNat 32 w)]

/-! ### One clock cycle -/

/-- The events of one clock cycle in the order of R432: the bus access, then the tick, then the completion (DEDUCED,
safe: log 11). -/
def cycleEvents (access : Event) (tick complete : Bool) : List Event :=
  access :: ((if tick then [Event.tick] else []) ++ (if complete then [Event.complete] else []))

/-- The state after the bus access and the tick of one clock cycle, before its completion (R432). -/
def State.cycle (s : State) (access : Event) (tick : Bool) : State :=
  if tick then (s.perform access).ticked else s.perform access

end Sys2Proof.Machine
end

