-- ==== Sys2Proof/Certificates/Slice0/Obligations.lean ====
section
/-! DEFINITION. The statements about the block, from the spec's numbered rules. -/

open Sys2Proof Sys2Proof.Machine

/-! ### The command word -/

/-- Every well-formed command is what the decoder reads from the word the encoder writes for it (R141, R146). -/
def Obligations.DecodeInvertsEncode : Prop :=
  ∀ i : Instr, i.wellFormed = true → decode (encode i) = .ok i

/-- Every word the decoder reads as a command is the encoding of that command, so each command has one word (R141, R146,
R147). -/
def Obligations.EncodeInvertsDecode : Prop :=
  ∀ (w : Word) (i : Instr), decode w = .ok i → i.wellFormed = true ∧ encode i = w

/-- A word is a command exactly when one row of the opcode map matches it, and no word matches two rows (R146, R147). -/
def Obligations.LegalWordsMatchOneRow : Prop :=
  ∀ w : Word,
    (legal w = true ↔ ∃ i, decode w = .ok i) ∧
    (legal w = true ↔ ∃ r ∈ opcodeMap, w &&& r.mask = r.value) ∧
    (opcodeMap.filter fun r => r.matches w).length ≤ 1

/-- Words written out from the bit layout of R141 decode to the commands they stand for (R146), and the fields of any word are
the bits of that layout. -/
def Obligations.SampleWordsDecode : Prop :=
  (∀ w : Word, cmdOp w = w.extractLsb' 0 4 ∧ cmdDigits w = w.extractLsb' 4 4 ∧
    cmdTsrc w = (if w.getLsbD 8 then .arg else .now) ∧ cmdTxtkey w = (if w.getLsbD 9 then .txt else .key) ∧
    cmdWindow w = w.extractLsb' 10 4) ∧
  decode 0b00000000000000000000000000000001 = .ok .sha1 ∧
  decode 0b00000000000000000000000000000010 = .ok .hmac ∧
  decode 0b00000000000000000000000001110011 = .ok (.hotp 7) ∧
  decode 0b00000000000000000000000110000100 = .ok (.totp 8 .arg .key) ∧
  decode 0b00000000000000000000011101100101 = .ok (.verify 6 .arg .txt 1) ∧
  decode 0b00000000000000000000000000000110 = .ok .b32enc ∧
  decode 0b00000000000000000000000000000111 = .ok .b32dec ∧
  decode 0b00000000000000000000000100001000 = .ok (.ctrfor .arg) ∧
  decode 0b00000000000000000000000000001001 = .ok (.remsec .now) ∧
  decode 0b00000000000000000000000000001010 = .ok .zero ∧
  decode 0b00000000000000000000000000001111 = .ok .nop

/-- A reserved OP makes a word illegal, and an illegal word is accepted like any other and completes with ILLEGAL_CMD and
no other effect (R148). -/
def Obligations.IllegalCommandCompletes : Prop :=
  (∀ w : Word, (cmdOp w = 0x0 ∨ cmdOp w = 0xB ∨ cmdOp w = 0xC ∨ cmdOp w = 0xD ∨ cmdOp w = 0xE) → legal w = false) ∧
  ∀ (s : State) (w : Word), legal w = false → s.busy = false →
    (s.perform (.write 32 0x008 w)).cmdLatch = w ∧ (s.perform (.write 32 0x008 w)).busy = true ∧
    completion (s.perform (.write 32 0x008 w)) = .next
      { s.perform (.write 32 0x008 w) with err := .illegalCmd, lastop := cmdOp w, done := true, busy := false }

/-! ### The life of a command -/

/-- A write of CMD while BUSY = 0 latches the word, samples the time its TSRC bit selects and sets BUSY, and changes
nothing else; while BUSY = 1 it is dropped. S_TIME is sampled for every word, but no command other than TOTP, VERIFY,
CTRFOR and REMSEC reads it (R150). -/
def Obligations.CmdWriteAcceptsCommand : Prop :=
  (∀ (s : State) (v : Word), s.busy = false →
    s.perform (.write 32 0x008 v) =
      { s with cmdLatch := v, sTime := if v.getLsbD 8 = false then s.time else s.targ, busy := true, resp := okayWrite }) ∧
  (∀ (s : State) (v : Word), s.busy = true →
    s.perform (.write 32 0x008 v) = { s with drop := true, resp := okayWrite }) ∧
  ∀ (s t : State) (i : Instr) (x : DWord),
    (i = .sha1 ∨ i = .hmac ∨ (∃ d, i = .hotp d) ∨ i = .b32enc ∨ i = .b32dec ∨ i = .zero ∨ i = .nop) →
    exec i s = .next t → exec i { s with sTime := x } = .next { t with sTime := x }

/-- Every command completes, and its completion records ERR, the latched OP, DONE and BUSY; a command that fails writes
nothing else (R151, R152). -/
def Obligations.CompletionRecordsOutcome : Prop :=
  ∀ (i : Instr) (s : State), ∃ t, exec i s = .next t ∧
    t.lastop = s.cmdLatch.extractLsb' 0 4 ∧ t.done = true ∧ t.busy = false ∧
    (t.err ≠ .ok → t = s.recorded t.err)

/-- The completion event runs the command the decoder reads from the latched word, whether the schedule names the
completion or has no event left (logs 1 and 2); and the step after `withFetchWord` runs the word it was given (log 7). -/
def Obligations.StepRunsDecodedCommand : Prop :=
  (∀ (s : State) (i : Instr), s.busy = true → decode s.cmdLatch = .ok i →
    (s.inputs = [] → step s = exec i s) ∧
    ∀ es, s.inputs = .complete :: es → step s = exec i { s with inputs := es }) ∧
  ∀ (s : State) (nbits w : Nat) (i : Instr), decodeTableWord nbits w = some i →
    step (s.withFetchWord nbits w) = exec i { s.accept (tableWord nbits w) with inputs := s.inputs }

/-- A step takes the oldest event to come and performs it; a completion is not enabled while BUSY = 0; an idle block with
no event to come keeps its state. This order of events is the model's form of R114 (logs 1, 2 and 10). -/
def Obligations.StepTakesOldestEvent : Prop :=
  ∀ s : State,
    (∀ e es, s.inputs = e :: es → e ≠ .complete → step s = .next (State.perform { s with inputs := es } e)) ∧
    (∀ es, s.inputs = .complete :: es → s.busy = false → step s = .next { s with inputs := es }) ∧
    (s.inputs = [] → s.busy = false → step s = .next s)

/-- No step ever stops the block: it raises no trap, exception or abort (R400). -/
def Obligations.NoStepStops : Prop := ∀ s : State, ∃ t, step s = .next t

/-! ### The commands -/

/-- SHA1: its word, its one error, its digest, and that it writes DIGEST alone (R258). -/
def Obligations.Sha1Command : Prop :=
  rowDecodes 0x1 0xFFFFFFFF (fun _ => .sha1) ∧
  (∀ s : State, 64 < s.msglen.toNat → failsWith .sha1 s .invalidLength) ∧
  ∀ s : State, s.msglen.toNat ≤ 64 → ∃ t, exec .sha1 s = .next t ∧
    t.bytes .digest 20 = sha1 (s.bytes .msg s.msglen.toNat) ∧
    sameBytesOutside [.digest] s t ∧ t = State.recorded { s with mem := t.mem } .ok

/-- HMAC: its word, its errors in order, the digest of RFC 2104's formula (R250), and that it writes DIGEST alone
(R262). -/
def Obligations.HmacCommand : Prop :=
  rowDecodes 0x2 0xFFFFFFFF (fun _ => .hmac) ∧
  (∀ s : State, 64 < s.keylen.toNat ∨ 64 < s.msglen.toNat → failsWith .hmac s .invalidLength) ∧
  (∀ s : State, s.keylen.toNat = 0 → s.msglen.toNat ≤ 64 → failsWith .hmac s .invalidSecretLength) ∧
  ∀ s : State, 1 ≤ s.keylen.toNat → s.keylen.toNat ≤ 64 → s.msglen.toNat ≤ 64 →
    ∃ (t : State) (k0 : List Byte), exec .hmac s = .next t ∧
      k0 = s.bytes .key s.keylen.toNat ++ List.replicate (64 - s.keylen.toNat) 0 ∧
      t.bytes .digest 20 = sha1 (k0.map (fun x => x ^^^ 0x5C) ++
        sha1 (k0.map (fun x => x ^^^ 0x36) ++ s.bytes .msg s.msglen.toNat)) ∧
      sameBytesOutside [.digest] s t ∧ t = State.recorded { s with mem := t.mem } .ok

/-- HOTP: its words, its errors in order, and its outputs: the HMAC of the counter as 8 bytes big-endian (byte i of 8 is
v / 256^(7-i) mod 256, R10, R280), the truncated value, the code and its ASCII form, the digit count; nothing else (R286). -/
def Obligations.HotpCommand : Prop :=
  (∀ v : Nat, (bytesBE 8 v).length = 8 ∧ ∀ i < 8, ((bytesBE 8 v).getD i 0).toNat = v / 256 ^ (7 - i) % 256) ∧
  rowDecodes 0x3 0xFFFFFF0F (fun w => .hotp (cmdDigits w).toNat) ∧
  (∀ (s : State) (f : Nat), 64 < s.keylen.toNat → failsWith (.hotp f) s .invalidLength) ∧
  (∀ (s : State) (f : Nat), s.keylen.toNat = 0 → failsWith (.hotp f) s .invalidSecretLength) ∧
  (∀ (s : State) (f : Nat), 1 ≤ s.keylen.toNat → s.keylen.toNat ≤ 64 → invalidDigits f →
    failsWith (.hotp f) s .invalidDigits) ∧
  ∀ (s : State) (f d : Nat), 1 ≤ s.keylen.toNat → s.keylen.toNat ≤ 64 → selectsDigits f d →
    ∃ (t : State) (h : List Byte) (p : Nat), exec (.hotp f) s = .next t ∧
      h = hmacSha1 (s.bytes .key s.keylen.toNat) (bytesBE 8 s.ctr.toNat) ∧ p = truncValue h ∧
      t.bytes .digest 20 = h ∧ t.trunc.toNat = p ∧ t.code.toNat = p % 10 ^ d ∧
      t.bytes .codea 8 = asciiDigits d (p % 10 ^ d) ++ List.replicate (8 - d) 0 ∧ t.cdig.toNat = d ∧
      sameBytesOutside [.digest, .codea] s t ∧
      t = State.recorded { s with mem := t.mem, trunc := t.trunc, code := t.code, cdig := t.cdig } .ok

/-- TOTP: its words, its errors in order, and its outputs: those of the HOTP function at the counter of S_TIME, the counter
and the countdown; nothing else (R312). -/
def Obligations.TotpCommand : Prop :=
  rowDecodes 0x4 0xFFFFFC0F (fun w => .totp (cmdDigits w).toNat (cmdTsrc w) (cmdTxtkey w)) ∧
  (∀ (s : State) (f : Nat) (x : TimeSrc) (src : KeySrc), sourceLengthInvalid s src →
    failsWith (.totp f x src) s .invalidLength) ∧
  (∀ (s : State) (f : Nat) (x : TimeSrc) (src : KeySrc), sourceUndecodable s src →
    failsWith (.totp f x src) s .invalidSecret) ∧
  (∀ (s : State) (f : Nat) (x : TimeSrc) (src : KeySrc), sourceGives s src [] →
    failsWith (.totp f x src) s .invalidSecretLength) ∧
  (∀ (s : State) (f : Nat) (x : TimeSrc) (src : KeySrc) (k : List Byte), sourceGives s src k → k ≠ [] →
    invalidDigits f → failsWith (.totp f x src) s .invalidDigits) ∧
  ∀ (s : State) (f d : Nat) (x : TimeSrc) (src : KeySrc) (k : List Byte), sourceGives s src k → k ≠ [] →
    selectsDigits f d →
    ∃ (t : State) (h : List Byte) (p : Nat), exec (.totp f x src) s = .next t ∧
      h = hmacSha1 k (bytesBE 8 (s.sTime.toNat / 30)) ∧ p = truncValue h ∧
      t.ctrOut.toNat = s.sTime.toNat / 30 ∧ t.rem.toNat = 30 - s.sTime.toNat % 30 ∧
      t.bytes .digest 20 = h ∧ t.trunc.toNat = p ∧ t.code.toNat = p % 10 ^ d ∧
      t.bytes .codea 8 = asciiDigits d (p % 10 ^ d) ++ List.replicate (8 - d) 0 ∧ t.cdig.toNat = d ∧
      sameBytesOutside [.digest, .codea] s t ∧
      t = State.recorded { s with mem := t.mem, trunc := t.trunc, code := t.code, cdig := t.cdig,
                                  ctrOut := t.ctrOut, rem := t.rem } .ok

/-- VERIFY: its words, its errors in order, and its verdict: some counter from c - w to c + w, none below 0, has the
candidate as its code; it writes the verdict and the current counter and nothing else (R316). -/
def Obligations.VerifyCommand : Prop :=
  rowDecodes 0x5 0xFFFFC00F
    (fun w => .verify (cmdDigits w).toNat (cmdTsrc w) (cmdTxtkey w) (cmdWindow w).toNat) ∧
  (∀ (s : State) (f w : Nat) (x : TimeSrc) (src : KeySrc), sourceLengthInvalid s src ∨ 8 < s.candlen.toNat →
    failsWith (.verify f x src w) s .invalidLength) ∧
  (∀ (s : State) (f w : Nat) (x : TimeSrc) (src : KeySrc), s.candlen.toNat ≤ 8 → sourceUndecodable s src →
    failsWith (.verify f x src w) s .invalidSecret) ∧
  (∀ (s : State) (f w : Nat) (x : TimeSrc) (src : KeySrc), s.candlen.toNat ≤ 8 → sourceGives s src [] →
    failsWith (.verify f x src w) s .invalidSecretLength) ∧
  (∀ (s : State) (f w : Nat) (x : TimeSrc) (src : KeySrc) (k : List Byte), s.candlen.toNat ≤ 8 →
    sourceGives s src k → k ≠ [] → invalidDigits f → failsWith (.verify f x src w) s .invalidDigits) ∧
  ∀ (s : State) (f d w : Nat) (x : TimeSrc) (src : KeySrc) (k : List Byte), s.candlen.toNat ≤ 8 →
    sourceGives s src k → k ≠ [] → selectsDigits f d →
    ∃ (t : State) (c : Nat), exec (.verify f x src w) s = .next t ∧ c = s.sTime.toNat / 30 ∧
      (t.vmatch = true ↔ ∃ n : Nat, (c : Int) - w ≤ n ∧ n ≤ c + w ∧
        asciiDigits d (truncValue (hmacSha1 k (bytesBE 8 n)) % 10 ^ d) = s.bytes .cand s.candlen.toNat) ∧
      t.ctrOut.toNat = c ∧
      t = State.recorded { s with vmatch := t.vmatch, ctrOut := t.ctrOut } .ok

/-- B32ENC: its word, its one error, the text with zeros after it and its length, and that it writes nothing else
(R210). -/
def Obligations.B32encCommand : Prop :=
  rowDecodes 0x6 0xFFFFFFFF (fun _ => .b32enc) ∧
  (∀ s : State, 64 < s.keylen.toNat → failsWith .b32enc s .invalidLength) ∧
  ∀ s : State, s.keylen.toNat ≤ 64 → ∃ (t : State) (x : List Byte), exec .b32enc s = .next t ∧
    x = b32encode (s.bytes .key s.keylen.toNat) ∧ x.length ≤ 104 ∧
    t.bytes .txt 128 = x ++ List.replicate (128 - x.length) 0 ∧ t.txtlen.toNat = x.length ∧
    sameBytesOutside [.txt] s t ∧ t = State.recorded { s with mem := t.mem, txtlen := t.txtlen } .ok

/-- B32DEC: its word, its errors in order, the key with zeros after it and its length, and that it writes nothing else
(R220). -/
def Obligations.B32decCommand : Prop :=
  rowDecodes 0x7 0xFFFFFFFF (fun _ => .b32dec) ∧
  (∀ s : State, 128 < s.txtlen.toNat → failsWith .b32dec s .invalidLength) ∧
  (∀ s : State, s.txtlen.toNat ≤ 128 → b32decode (s.bytes .txt s.txtlen.toNat) = none →
    failsWith .b32dec s .invalidEncoding) ∧
  (∀ (s : State) (r : List Byte), s.txtlen.toNat ≤ 128 → b32decode (s.bytes .txt s.txtlen.toNat) = some r →
    64 < r.length → failsWith .b32dec s .keyOverflow) ∧
  ∀ (s : State) (r : List Byte), s.txtlen.toNat ≤ 128 → b32decode (s.bytes .txt s.txtlen.toNat) = some r →
    r.length ≤ 64 → ∃ t, exec .b32dec s = .next t ∧
      t.bytes .key 64 = r ++ List.replicate (64 - r.length) 0 ∧ t.keylen.toNat = r.length ∧
      sameBytesOutside [.key] s t ∧ t = State.recorded { s with mem := t.mem, keylen := t.keylen } .ok

/-- CTRFOR: its words, the counter of S_TIME, and that it writes CTR_OUT alone (R322). -/
def Obligations.CtrforCommand : Prop :=
  rowDecodes 0x8 0xFFFFFEFF (fun w => .ctrfor (cmdTsrc w)) ∧
  ∀ (s : State) (x : TimeSrc), ∃ t, exec (.ctrfor x) s = .next t ∧ t.ctrOut.toNat = s.sTime.toNat / 30 ∧
    t = State.recorded { s with ctrOut := t.ctrOut } .ok

/-- REMSEC: its words, the seconds left in the window of S_TIME, and that it writes REM alone (R325). -/
def Obligations.RemsecCommand : Prop :=
  rowDecodes 0x9 0xFFFFFEFF (fun w => .remsec (cmdTsrc w)) ∧
  ∀ (s : State) (x : TimeSrc), ∃ t, exec (.remsec x) s = .next t ∧ t.rem.toNat = 30 - s.sTime.toNat % 30 ∧
    t = State.recorded { s with rem := t.rem } .ok

/-- ZERO: its word, that every buffer byte, length, operand and output is 0 after it, and that it changes nothing else
(R350). -/
def Obligations.ZeroCommand : Prop :=
  rowDecodes 0xA 0xFFFFFFFF (fun _ => .zero) ∧
  ∀ s : State, ∃ t, exec .zero s = .next t ∧
    (∀ b i, i < bufSize b → t.byte b i = 0) ∧ sameBytesOutside allBuffers s t ∧
    t = State.recorded { s with keylen := 0, msglen := 0, txtlen := 0, candlen := 0, ctr := 0, targ := 0, trunc := 0,
                                code := 0, ctrOut := 0, rem := 0, cdig := 0, vmatch := false, mem := t.mem } .ok

/-- NOP: its word, and that it completes with no effect but the record (R354). -/
def Obligations.NopCommand : Prop :=
  rowDecodes 0xF 0xFFFFFFFF (fun _ => .nop) ∧ (∀ s : State, exec .nop s = .next (s.recorded .ok)) ∧
  ∀ s : State, cmdOp s.cmdLatch = 0xF →
    exec .nop s = .next { s with err := .ok, lastop := 0xF, done := true, busy := false }

/-- After ZERO, in every state that meets the invariant, every register but TIME, the time snapshots, IE, STATUS and CMD (and
the hidden S_TIME) has its reset value; a HOTP then fails for want of a key and a B32ENC gives the empty text (R351). -/
def Obligations.ZeroRestoresReset : Prop :=
  ∀ s : State, s.Inv → ∃ t, exec .zero s = .next t ∧
    t = { State.reset with
          cmdLatch := s.cmdLatch, done := true, win := s.win, drop := s.drop, lastop := s.cmdLatch.extractLsb' 0 4,
          doneIe := s.doneIe, winIe := s.winIe, dropIe := s.dropIe, time := s.time, sTime := s.sTime,
          timeHiSnap := s.timeHiSnap, timeLoStage := s.timeLoStage, inputs := s.inputs, resp := s.resp } ∧
    (∀ f, failsWith (.hotp f) t .invalidSecretLength) ∧
    ∃ u, exec .b32enc t = .next u ∧ u.err = .ok ∧ u.txtlen = 0

/-! ### The algorithms -/

/-- The padded message: the message, 0x80, the least number of zeros that leaves 56 modulo 64, and the bit length as 8 bytes,
most significant first; its length is the block count times 64 (R241). -/
def Obligations.Sha1PaddedMessage : Prop :=
  ∀ m : List Byte, ∃ (k : Nat) (l : List Byte),
    (m.length + 1 + k) % 64 = 56 ∧ (∀ j < k, (m.length + 1 + j) % 64 ≠ 56) ∧
    l.length = 8 ∧ (∀ i < 8, (l.getD i 0).toNat = 8 * m.length / 256 ^ (7 - i) % 256) ∧
    sha1Pad m = m ++ [0x80] ++ List.replicate k 0 ++ l ∧
    (sha1Pad m).length = 64 * ((m.length + 8) / 64 + 1)

/-- The message schedule: the sixteen big-endian words of the block, then the recurrence (R242, R245). -/
def Obligations.Sha1MessageSchedule : Prop :=
  ∀ blk : List Byte, (schedule blk).length = 80 ∧
    (∀ t < 16, (schedule blk).getD t 0 =
      blk.getD (4 * t) 0 ++ blk.getD (4 * t + 1) 0 ++ blk.getD (4 * t + 2) 0 ++ blk.getD (4 * t + 3) 0) ∧
    ∀ t, 16 ≤ t → t < 80 → (schedule blk).getD t 0 =
      ((schedule blk).getD (t - 3) 0 ^^^ (schedule blk).getD (t - 8) 0 ^^^ (schedule blk).getD (t - 14) 0 ^^^
        (schedule blk).getD (t - 16) 0).rotateLeft 1

/-- SHA-1 from the initial value to the digest: the initial hash value (R243); the round functions and constants (R244); for
each block of the padded message in order, 80 rounds from the hash value and the sums after them, all modulo 2^32 (R246);
the digest is 20 bytes, the five words of the last hash value each big-endian (R247). -/
def Obligations.Sha1DigestBytes : Prop :=
  (∀ (t : Nat) (b c d : Word),
    (t < 20 → roundF t b c d = (b &&& c) ||| (~~~b &&& d) ∧ roundK t = 0x5A827999) ∧
    (20 ≤ t → t < 40 → roundF t b c d = b ^^^ c ^^^ d ∧ roundK t = 0x6ED9EBA1) ∧
    (40 ≤ t → t < 60 → roundF t b c d = (b &&& c) ||| (b &&& d) ||| (c &&& d) ∧ roundK t = 0x8F1BBCDC) ∧
    (60 ≤ t → t < 80 → roundF t b c d = b ^^^ c ^^^ d ∧ roundK t = 0xCA62C1D6)) ∧
  ∀ m : List Byte,
    (∃ hash : Nat → HashState,
      hash 0 = { a := 0x67452301, b := 0xEFCDAB89, c := 0x98BADCFE, d := 0x10325476, e := 0xC3D2E1F0 } ∧
      hash ((m.length + 8) / 64 + 1) = sha1Hash m ∧
      ∀ i < (m.length + 8) / 64 + 1, ∃ (w : List Word) (v : Nat → HashState),
        w = schedule (((sha1Pad m).drop (64 * i)).take 64) ∧ v 0 = hash i ∧
        (∀ t < 80, v (t + 1) =
          { a := (v t).a.rotateLeft 5 + roundF t (v t).b (v t).c (v t).d + (v t).e + roundK t + w.getD t 0
            b := (v t).a
            c := (v t).b.rotateLeft 30
            d := (v t).c
            e := (v t).d }) ∧
        hash (i + 1) =
          { a := (hash i).a + (v 80).a
            b := (hash i).b + (v 80).b
            c := (hash i).c + (v 80).c
            d := (hash i).d + (v 80).d
            e := (hash i).e + (v 80).e }) ∧
    (sha1 m).length = 20 ∧
    ∀ i < 5, ∀ j < 4, (sha1 m).getD (4 * i + j) 0 =
      ([(sha1Hash m).a, (sha1Hash m).b, (sha1Hash m).c, (sha1Hash m).d, (sha1Hash m).e].getD i 0).extractLsb'
        (24 - 8 * j) 8

/-- The lengths inside HMAC: the inner hash input is 64 + len(m) bytes, 2 blocks up to 55 and 3 from 56 on; the outer is 84
bytes, 2 blocks; for an 8-byte message that is 4 blocks in all (R252). -/
def Obligations.HmacInnerLengths : Prop :=
  ∀ k m : List Byte, 1 ≤ k.length → k.length ≤ 64 → m.length ≤ 64 →
    (xorPad 0x36 (hmacKeyBlock k) ++ m).length = 64 + m.length ∧
    (xorPad 0x5C (hmacKeyBlock k) ++ sha1 (xorPad 0x36 (hmacKeyBlock k) ++ m)).length = 84 ∧
    (m.length ≤ 55 → sha1Blocks (64 + m.length) = 2) ∧ (56 ≤ m.length → sha1Blocks (64 + m.length) = 3) ∧
    sha1Blocks 84 = 2 ∧ (m.length = 8 → sha1Blocks (64 + m.length) + sha1Blocks 84 = 4)

/-- Dynamic truncation: the offset is the low 4 bits of the last digest byte, and the 31-bit value is the four bytes there,
the top bit masked off, every index inside the digest (R281, R282). -/
def Obligations.DynamicTruncation : Prop :=
  ∀ h : List Byte, h.length = 20 → ∃ o : Nat,
    o = (h.getD 19 0).toNat % 16 ∧ truncOffset h = o ∧ o ≤ 15 ∧ o + 3 < h.length ∧
    truncValue h = (h.getD o 0).toNat % 128 * 2 ^ 24 + (h.getD (o + 1) 0).toNat * 2 ^ 16 +
      (h.getD (o + 2) 0).toNat * 2 ^ 8 + (h.getD (o + 3) 0).toNat ∧
    truncValue h ≤ 2 ^ 31 - 1

/-- The code is p mod 10^d, at most 10^d - 1, and its ASCII form is its d decimal digits, most significant first, which
read back as the code (R283, R284). -/
def Obligations.CodeDigits : Prop :=
  ∀ (k : List Byte) (c d : Nat), d = 6 ∨ d = 7 ∨ d = 8 →
    (hotpCore k c d).code = (hotpCore k c d).p % 10 ^ d ∧ (hotpCore k c d).code ≤ 10 ^ d - 1 ∧
    (hotpCore k c d).ascii.length = d ∧
    (∀ x ∈ (hotpCore k c d).ascii, 0x30 ≤ x.toNat ∧ x.toNat ≤ 0x39) ∧
    (hotpCore k c d).ascii.foldl (fun n x => 10 * n + (x.toNat - 0x30)) 0 = (hotpCore k c d).code

/-- The Base32 alphabet and its decode map: 0 to 25 are "A" to "Z", 26 to 31 are "2" to "7", lower case reads as upper case,
and every other byte is invalid (R200, R202). -/
def Obligations.Base32Alphabet : Prop :=
  (∀ v < 26, b32Char v = BitVec.ofNat 8 (0x41 + v) ∧ b32Value (BitVec.ofNat 8 (0x41 + v)) = some v ∧
    b32Value (BitVec.ofNat 8 (0x61 + v)) = some v) ∧
  (∀ v < 6, b32Char (26 + v) = BitVec.ofNat 8 (0x32 + v) ∧ b32Value (BitVec.ofNat 8 (0x32 + v)) = some (26 + v)) ∧
  ∀ x : Byte, b32Value x = none ↔
    ¬(0x41 ≤ x.toNat ∧ x.toNat ≤ 0x5A) ∧ ¬(0x61 ≤ x.toNat ∧ x.toNat ≤ 0x7A) ∧ ¬(0x32 ≤ x.toNat ∧ x.toNat ≤ 0x37)

/-- The encoding of n bytes: ceil(8n / 5) data characters, character j the alphabet's one for bits 5j to 5j + 4 of the bytes,
most significant bit first, zeros after the last byte (R203); its length is 8 * ceil(n / 5), with 0, 6, 4, 3 or 1 "=" at
the end as n mod 5 is 0, 1, 2, 3 or 4 (R204). -/
def Obligations.Base32EncodingShape : Prop :=
  ∀ b : List Byte, ∃ (d : List Byte) (p : Nat),
    b32encode b = d ++ List.replicate p 0x3D ∧ d.length = (8 * b.length + 4) / 5 ∧ p = (8 - d.length % 8) % 8 ∧
    (∀ j < d.length, ∃ v < 32, d.getD j 0 = b32Char v ∧
      ∀ k < 5, v.testBit (4 - k) =
        if 5 * j + k < 8 * b.length then (b.getD ((5 * j + k) / 8) 0).getMsbD ((5 * j + k) % 8) else false) ∧
    (b32encode b).length = 8 * ((b.length + 4) / 5) ∧ p = [0, 6, 4, 3, 1].getD (b.length % 5) 0

/-- The decoder accepts exactly the strings of alphabet characters of a right length class, followed by no "=" or by as many
as are due, and gives the bits of their values, most significant first, the bits left over dropped (R205). -/
def Obligations.Base32DecodeAccepts : Prop :=
  ∀ s r : List Byte, b32decode s = some r ↔
    ∃ (d : List Byte) (p : Nat) (vs : List Nat),
      s = d ++ List.replicate p 0x3D ∧ vs.length = d.length ∧
      (∀ j < d.length, b32Value (d.getD j 0) = some (vs.getD j 0)) ∧
      (d.length % 8 = 0 ∧ p = 0 ∨ d.length % 8 = 2 ∧ (p = 0 ∨ p = 6) ∨ d.length % 8 = 4 ∧ (p = 0 ∨ p = 4) ∨
        d.length % 8 = 5 ∧ (p = 0 ∨ p = 3) ∨ d.length % 8 = 7 ∧ (p = 0 ∨ p = 1)) ∧
      r.length = 5 * d.length / 8 ∧
      ∀ i < r.length, ∀ k < 8,
        (r.getD i 0).getMsbD k = (vs.getD ((8 * i + k) / 5) 0).testBit (4 - (8 * i + k) % 5)

/-- Decoding an encoding gives the bytes back, whatever their number (R208). -/
def Obligations.Base32RoundTrip : Prop := ∀ b : List Byte, b32decode (b32encode b) = some b

/-- The bits of the last character that no byte takes are ignored: two texts that differ only there decode alike, as
"MZ======" and "MY======" do (R206). -/
def Obligations.Base32TrailingBitsIgnored : Prop :=
  (∀ (d : List Byte) (x y : Byte) (u v p : Nat), b32Value x = some u → b32Value y = some v →
    u / 2 ^ (5 * (d.length + 1) % 8) = v / 2 ^ (5 * (d.length + 1) % 8) →
    b32decode (d ++ [x] ++ List.replicate p 0x3D) = b32decode (d ++ [y] ++ List.replicate p 0x3D)) ∧
  b32decode ([0x4D, 0x5A] ++ List.replicate 6 0x3D) = some [0x66] ∧
  b32decode ([0x4D, 0x59] ++ List.replicate 6 0x3D) = some [0x66]

/-- A key survives B32ENC and then B32DEC on the block: the same KEYLEN and key bytes, and zeros after them (kincode §8.1;
R208, R210, R220). -/
def Obligations.KeySurvivesEncodeDecode : Prop :=
  ∀ s : State, s.keylen.toNat ≤ 64 → ∃ t u, exec .b32enc s = .next t ∧ exec .b32dec t = .next u ∧
    u.err = .ok ∧ u.keylen = s.keylen ∧ u.bytes .key s.keylen.toNat = s.bytes .key s.keylen.toNat ∧
    ∀ i, s.keylen.toNat ≤ i → i < 64 → u.byte .key i = 0

/-- TOTP delegates to HOTP: it ends as HOTP does with CTR set to the counter of S_TIME, code outputs and error alike (R285,
R312). -/
def Obligations.TotpIsHotpOfTimeCounter : Prop :=
  ∀ (s : State) (f : Nat) (x : TimeSrc), ∃ t u,
    exec (.totp f x .key) s = .next t ∧
    exec (.hotp f) { s with ctr := BitVec.ofNat 64 (s.sTime.toNat / 30) } = .next u ∧
    t.err = u.err ∧ t.trunc = u.trunc ∧ t.code = u.code ∧ t.cdig = u.cdig ∧
    sameBuffer .digest u t ∧ sameBuffer .codea u t

/-- A text key acts as the key that B32DEC would leave in KEY, without KEY or KEYLEN being written; and where B32DEC refuses
the text, or the key is too long for KEY, TOTP fails with INVALID_SECRET (R311). -/
def Obligations.TextKeyActsAsDecodedKey : Prop :=
  ∀ (s t : State) (f : Nat) (x : TimeSrc), exec .b32dec s = .next t →
    (t.err = .ok → ∃ u v, exec (.totp f x .txt) s = .next u ∧ exec (.totp f x .key) t = .next v ∧
      u.err = v.err ∧ (u.err = .ok → u.ctrOut = v.ctrOut ∧ u.rem = v.rem ∧ u.trunc = v.trunc ∧ u.code = v.code ∧
        u.cdig = v.cdig ∧ sameBuffer .digest v u ∧ sameBuffer .codea v u) ∧
      u.keylen = s.keylen ∧ sameBuffer .key s u) ∧
    (t.err = .invalidEncoding ∨ t.err = .keyOverflow → failsWith (.totp f x .txt) s .invalidSecret)

/-- The counter of a time is its 30-second window, at most 614891469123651720; the countdown is 1 to 30, 30 exactly at the
start of a window; the counter never falls as time grows, nor at a tick but the one that wraps TIME (R320, R321, R327). -/
def Obligations.CounterAndCountdown : Prop :=
  (∀ t : DWord, 30 * counterFor t ≤ t.toNat ∧ t.toNat < 30 * counterFor t + 30 ∧
    counterFor t ≤ 614891469123651720 ∧ 1 ≤ remaining t ∧ remaining t ≤ 30 ∧
    remaining t + t.toNat % 30 = 30 ∧ (remaining t = 30 ↔ t.toNat % 30 = 0)) ∧
  (∀ t u : DWord, t.toNat ≤ u.toNat → counterFor t ≤ counterFor u) ∧
  ∀ s : State, s.time.toNat ≠ 2 ^ 64 - 1 → counterFor s.time ≤ counterFor (s.perform .tick).time

/-! ### The bus -/

/-- The register map: the register at each offset, and the constants of ID and PARAM (R40, R41, R42). -/
def Obligations.RegisterMap : Prop :=
  (∀ e ∈ regMap, regAt e.1 = e.2) ∧
  regMap = [(0x000, .id), (0x004, .param), (0x008, .cmd), (0x00C, .status), (0x010, .ie), (0x014, .keylen),
    (0x018, .msglen), (0x01C, .txtlen), (0x020, .ctrLo), (0x024, .ctrHi), (0x028, .targLo), (0x02C, .targHi),
    (0x030, .timeLo), (0x034, .timeHi), (0x038, .nowRem), (0x03C, .candlen), (0x048, .ctrOutLo), (0x04C, .ctrOutHi),
    (0x050, .rem), (0x054, .trunc), (0x058, .code), (0x064, .result)] ∧
  (∀ j < 2, regAt (0x040 + 4 * j) = .buf .cand j ∧ regAt (0x05C + 4 * j) = .buf .codea j) ∧
  (∀ j < 5, regAt (0x080 + 4 * j) = .buf .digest j) ∧
  (∀ j < 16, regAt (0x100 + 4 * j) = .buf .key j ∧ regAt (0x140 + 4 * j) = .buf .msg j) ∧
  (∀ j < 32, regAt (0x180 + 4 * j) = .buf .txt j) ∧
  ∀ s : State, s.regValue .id = 0x4B430007 ∧ s.regValue .param = 0x1E804040

/-- An access that is not 32 bits wide, or not at a multiple of 4, gets an ERROR response and changes nothing; a read gives 0
with it (R103). -/
def Obligations.UnsupportedAccesses : Prop :=
  ∀ (s : State) (bits : Nat) (off : BitVec 12) (v : Word), bits ≠ 32 ∨ off.toNat % 4 ≠ 0 →
    s.perform (.read bits off) = { s with resp := some { status := .error, data := some 0 } } ∧
    s.perform (.write bits off v) = { s with resp := some { status := .error, data := none } }

/-- A read returns the register's value at that instant and changes nothing, but that a read of TIME_LO latches the high
half of TIME; a second read of any other register with nothing between returns the same (R102). -/
def Obligations.ReadsReturnAndLatch : Prop :=
  ∀ (s : State) (off : BitVec 12), off.toNat % 4 = 0 →
    (off ≠ 0x030 → s.perform (.read 32 off) = { s with resp := okayRead (s.regValue (regAt off.toNat)) }) ∧
    s.perform (.read 32 0x030) =
      { s with timeHiSnap := s.time.extractLsb' 32 32, resp := okayRead (s.time.extractLsb' 0 32) } ∧
    ((s.perform (.read 32 off)).perform (.read 32 off)).resp = (s.perform (.read 32 off)).resp

/-- A write of a read-only register is ignored, with OKAY and no flag, whether or not a command is in flight; so are the
read-only fields of STATUS (R105). -/
def Obligations.ReadOnlyWritesIgnored : Prop :=
  ∀ (s : State) (v : Word),
    (∀ off ∈ [0x000, 0x004, 0x038, 0x048, 0x04C, 0x050, 0x054, 0x058, 0x05C, 0x060, 0x064, 0x080, 0x084, 0x088, 0x08C,
        (0x090 : BitVec 12)], s.perform (.write 32 off v) = { s with resp := okayWrite }) ∧
    s.perform (.write 32 0x00C v) =
      { s with done := (s.perform (.write 32 0x00C v)).done, win := (s.perform (.write 32 0x00C v)).win,
               drop := (s.perform (.write 32 0x00C v)).drop, resp := okayWrite }

/-- While BUSY = 1 a write of CMD or of an operand register is dropped: nothing changes but DROP, and the response is OKAY.
Writes of STATUS, IE, TIME_LO and TIME_HI are never dropped. While BUSY = 0 no write sets DROP (R106). -/
def Obligations.LockedWritesDropped : Prop :=
  (∀ (s : State) (off : BitVec 12) (v : Word), s.busy = true → lockedOffset off.toNat →
    s.perform (.write 32 off v) = { s with drop := true, resp := okayWrite }) ∧
  (∀ (s : State) (v : Word),
    s.perform (.write 32 0x00C v) =
      { s with done := s.done && !v.getLsbD 1, win := s.win && !v.getLsbD 2, drop := s.drop && !v.getLsbD 3,
               resp := okayWrite } ∧
    s.perform (.write 32 0x010 v) =
      { s with doneIe := v.getLsbD 1, winIe := v.getLsbD 2, dropIe := v.getLsbD 3, resp := okayWrite } ∧
    s.perform (.write 32 0x030 v) = { s with timeLoStage := v, resp := okayWrite } ∧
    s.perform (.write 32 0x034 v) = { s with time := v ++ s.timeLoStage, resp := okayWrite }) ∧
  ∀ (s : State) (bits : Nat) (off : BitVec 12) (v : Word), s.busy = false →
    (s.perform (.write bits off v)).drop = true → s.drop = true

/-- Reserved offsets read 0 and ignore writes, with OKAY; a write there is never dropped and never sets DROP (R108). -/
def Obligations.ReservedOffsets : Prop :=
  ∀ (s : State) (off : BitVec 12) (v : Word), reservedOffset off.toNat →
    s.perform (.read 32 off) = { s with resp := okayRead 0 } ∧
    s.perform (.write 32 off v) = { s with resp := okayWrite }

/-- While BUSY = 0 a write of an operand register is read back with its undefined bits 0, and every other register of the
map reads as before (R32, R33, R46 to R50, R53, R54, R62 to R64). What such a write leaves in the fields the commands read:
the low bits of the word in KEYLEN, MSGLEN, TXTLEN and CANDLEN, the written half of CTR or TARG with the other half kept, and
nothing else changed (R46 to R50, R53, R111). -/
def Obligations.OperandWriteReadsBack : Prop :=
  (∀ (s : State) (v : Word), s.busy = false →
    s.perform (.write 32 0x014 v) = { s with keylen := v.setWidth 7, resp := okayWrite } ∧
    s.perform (.write 32 0x018 v) = { s with msglen := v.setWidth 7, resp := okayWrite } ∧
    s.perform (.write 32 0x01C v) = { s with txtlen := v.setWidth 8, resp := okayWrite } ∧
    s.perform (.write 32 0x03C v) = { s with candlen := v.setWidth 4, resp := okayWrite } ∧
    s.perform (.write 32 0x020 v) = { s with ctr := s.ctr.extractLsb' 32 32 ++ v, resp := okayWrite } ∧
    s.perform (.write 32 0x024 v) = { s with ctr := v ++ s.ctr.extractLsb' 0 32, resp := okayWrite } ∧
    s.perform (.write 32 0x028 v) = { s with targ := s.targ.extractLsb' 32 32 ++ v, resp := okayWrite } ∧
    s.perform (.write 32 0x02C v) = { s with targ := v ++ s.targ.extractLsb' 0 32, resp := okayWrite }) ∧
  ∀ (s : State) (off : BitVec 12) (v : Word), s.busy = false → lockedOffset off.toNat → off ≠ 0x008 →
    (s.perform (.write 32 off v)).regValue (regAt off.toNat) =
      v &&& (if off = 0x014 ∨ off = 0x018 then 0x7F else if off = 0x01C then 0xFF else if off = 0x03C then 0xF
        else 0xFFFFFFFF) ∧
    ∀ o : BitVec 12, o.toNat % 4 = 0 → o ≠ off →
      (s.perform (.write 32 off v)).regValue (regAt o.toNat) = s.regValue (regAt o.toNat)

/-- Buffer byte i is lane i mod 4, little-endian, of the word at the buffer's base plus 4 * (i div 4); a write of a buffer
word sets its four bytes at once and no other byte; a write of 0x34333231 to KEY0 sets KEY[0..4) to "1234" (R110). The base
and size of each buffer are those of the map (R40), and the string a command reads is the buffer's bytes in order (R10). -/
def Obligations.BufferByteLanes : Prop :=
  (allBuffers.map fun b => (b, bufBase b, bufSize b, bufIsOperand b)) =
    [(.cand, 0x040, 8, true), (.codea, 0x05C, 8, false), (.digest, 0x080, 20, false), (.key, 0x100, 64, true),
      (.msg, 0x140, 64, true), (.txt, 0x180, 128, true)] ∧
  (∀ (s : State) (b : Buffer) (n : Nat), (s.bytes b n).length = n ∧ ∀ i < n, (s.bytes b n).getD i 0 = s.byte b i) ∧
  (∀ (s : State) (b : Buffer) (i : Nat), i < bufSize b →
    s.byte b i = (s.regValue (regAt (bufBase b + 4 * (i / 4)))).extractLsb' (8 * (i % 4)) 8) ∧
  (∀ (s : State) (b : Buffer) (j : Nat) (v : Word), s.busy = false → bufIsOperand b = true → 4 * j < bufSize b →
    (∀ k < 4, (s.perform (.write 32 (BitVec.ofNat 12 (bufBase b + 4 * j)) v)).byte b (4 * j + k) =
      v.extractLsb' (8 * k) 8) ∧
    ∀ a, a < bufBase b + 4 * j ∨ bufBase b + 4 * j + 4 ≤ a →
      Memory.read (s.perform (.write 32 (BitVec.ofNat 12 (bufBase b + 4 * j)) v)).mem a = Memory.read s.mem a) ∧
  ∀ s : State, s.busy = false →
    (s.perform (.write 32 0x100 0x34333231)).bytes .key 4 = [0x31, 0x32, 0x33, 0x34]

/-- STATUS and IE as read, bit by bit; the number of each error code (R401); their writes; and that ERR and LASTOP change only
at completion (or reset) (R44, R45). -/
def Obligations.StatusAndIeFields : Prop :=
  (errBits .ok = 0 ∧ errBits .illegalCmd = 1 ∧ errBits .invalidLength = 2 ∧ errBits .invalidDigits = 3 ∧
    errBits .invalidEncoding = 4 ∧ errBits .invalidSecret = 5 ∧ errBits .invalidSecretLength = 6 ∧
    errBits .keyOverflow = 7) ∧
  ∀ s : State,
    (s.statusWord.getLsbD 0 = s.busy ∧ s.statusWord.getLsbD 1 = s.done ∧ s.statusWord.getLsbD 2 = s.win ∧
      s.statusWord.getLsbD 3 = s.drop ∧ s.statusWord.extractLsb' 4 4 = 0 ∧
      s.statusWord.extractLsb' 8 4 = errBits s.err ∧ s.statusWord.extractLsb' 12 4 = s.lastop ∧
      s.statusWord.extractLsb' 16 16 = 0) ∧
    (s.ieWord.getLsbD 0 = false ∧ s.ieWord.getLsbD 1 = s.doneIe ∧ s.ieWord.getLsbD 2 = s.winIe ∧
      s.ieWord.getLsbD 3 = s.dropIe ∧ s.ieWord.extractLsb' 4 28 = 0) ∧
    (s.regValue (regAt 0x00C) = s.statusWord ∧ s.regValue (regAt 0x010) = s.ieWord) ∧
    (∀ v : Word, s.perform (.write 32 0x00C v) =
      { s with done := s.done && !v.getLsbD 1, win := s.win && !v.getLsbD 2, drop := s.drop && !v.getLsbD 3,
               resp := okayWrite }) ∧
    (∀ v : Word, s.perform (.write 32 0x010 v) =
      { s with doneIe := v.getLsbD 1, winIe := v.getLsbD 2, dropIe := v.getLsbD 3, resp := okayWrite }) ∧
    ∀ e, e ≠ .reset → (s.perform e).err = s.err ∧ (s.perform e).lastop = s.lastop

/-- The output registers are read-only to the bus and written only by the engine at completion: no other event but reset
changes one, so a read while BUSY = 1 returns what the last completed command left (R34). And what a read of an output
register, or of CMD, returns: the halves of CTR_OUT (R55, R111), REM, TRUNC and CODE with zeros above them (R56 to R58),
CDIG and VMATCH in RESULT with zeros elsewhere (R60), CMD the latched word (R43); the words of CODEA and DIGEST are their
bytes, lowest lane first (R59, R61, R110). -/
def Obligations.OutputsOnlyAtCompletion : Prop :=
  (∀ (s : State) (e : Event), e ≠ .reset → sameOutputs s (s.perform e)) ∧
  ∀ s : State,
    (s.perform (.read 32 0x008)).resp = okayRead s.cmdLatch ∧
    (∃ lo hi : Word, (s.perform (.read 32 0x048)).resp = okayRead lo ∧ (s.perform (.read 32 0x04C)).resp = okayRead hi ∧
      s.ctrOut = hi ++ lo) ∧
    (s.perform (.read 32 0x050)).resp = okayRead (0#27 ++ s.rem) ∧
    (s.perform (.read 32 0x054)).resp = okayRead (0#1 ++ s.trunc) ∧
    (s.perform (.read 32 0x058)).resp = okayRead (0#5 ++ s.code) ∧
    (∃ r : Word, (s.perform (.read 32 0x064)).resp = okayRead r ∧ r.extractLsb' 0 4 = s.cdig ∧
      r.extractLsb' 4 4 = 0 ∧ r.getLsbD 8 = s.vmatch ∧ r.extractLsb' 9 23 = 0) ∧
    (∀ j < 2, (s.perform (.read 32 (BitVec.ofNat 12 (0x05C + 4 * j)))).resp = okayRead
      (s.byte .codea (4 * j + 3) ++ s.byte .codea (4 * j + 2) ++ s.byte .codea (4 * j + 1) ++ s.byte .codea (4 * j))) ∧
    ∀ j < 5, (s.perform (.read 32 (BitVec.ofNat 12 (0x080 + 4 * j)))).resp = okayRead
      (s.byte .digest (4 * j + 3) ++ s.byte .digest (4 * j + 2) ++ s.byte .digest (4 * j + 1) ++ s.byte .digest (4 * j))

/-! ### Time and the interrupt -/

/-- A tick advances TIME by 1 modulo 2^64 and sets WIN where the new TIME is a multiple of 30, the wrap included, busy or not,
and changes nothing else; a bus write of TIME never sets WIN (R421, R423). -/
def Obligations.TickAdvancesTime : Prop :=
  ∀ s : State,
    (s.perform .tick).time.toNat = (s.time.toNat + 1) % 2 ^ 64 ∧
    ((s.perform .tick).win = true ↔ s.win = true ∨ (s.time.toNat + 1) % 2 ^ 64 % 30 = 0) ∧
    s.perform .tick = { s with time := (s.perform .tick).time, win := (s.perform .tick).win } ∧
    ∀ v : Word, (s.perform (.write 32 0x030 v)).win = s.win ∧ (s.perform (.write 32 0x034 v)).win = s.win

/-- A tick during a command changes nothing of its result: it may as well come after the completion (R424). -/
def Obligations.TickCommutesWithCompletion : Prop :=
  ∀ (i : Instr) (s t : State), exec i s = .next t →
    exec i (s.perform .tick) = .next (t.perform .tick) ∧ (s.perform .tick).sTime = s.sTime ∧
    sameOutputs t (t.perform .tick) ∧ (t.perform .tick).err = t.err

/-- A read of TIME_LO followed by a read of TIME_HI gives the TIME of the first read, whatever ticks fall between; a write of
TIME_LO alone leaves TIME, and the write of TIME_HI after it sets all 64 bits, whatever ticks fall between; busy or not
(R422). -/
def Obligations.TimeHalvesConsistent : Prop :=
  ∀ (s : State) (n : Nat),
    (∃ lo hi : Word, (s.perform (.read 32 0x030)).resp = okayRead lo ∧
      (((fun x : State => x.perform .tick)^[n] (s.perform (.read 32 0x030))).perform (.read 32 0x034)).resp
        = okayRead hi ∧ hi ++ lo = s.time) ∧
    ∀ lo hi : Word, s.perform (.write 32 0x030 lo) = { s with timeLoStage := lo, resp := okayWrite } ∧
      (((fun x : State => x.perform .tick)^[n] (s.perform (.write 32 0x030 lo))).perform (.write 32 0x034 hi)).time
        = hi ++ lo

/-- NOW_REM reads 30 - (TIME mod 30), always 1 to 30, and 30 after reset; each tick takes it down by one, and the tick that
takes it from 1 back to 30 sets WIN (R425, R426). -/
def Obligations.CountdownFollowsTicks : Prop :=
  (∀ s : State, (s.regValue .nowRem).toNat = 30 - s.time.toNat % 30 ∧ 1 ≤ (s.regValue .nowRem).toNat ∧
    (s.regValue .nowRem).toNat ≤ 30) ∧
  (State.reset.regValue .nowRem).toNat = 30 ∧
  ∀ s : State, s.time.toNat ≠ 2 ^ 64 - 1 →
    ((s.regValue .nowRem).toNat = 1 →
      ((s.perform .tick).regValue .nowRem).toNat = 30 ∧ (s.perform .tick).win = true) ∧
    ((s.regValue .nowRem).toNat ≠ 1 →
      ((s.perform .tick).regValue .nowRem).toNat = (s.regValue .nowRem).toNat - 1 ∧
      (s.perform .tick).win = s.win)

/-- The events of one clock cycle act as bus access, then tick, then completion, in each case the rule lists (R432). The last
clause, that such a cycle is a run of three steps of the events to come, is the model's form of it and no rule of the spec
(logs 1 and 11). -/
def Obligations.SameCycleOrder : Prop :=
  (∀ (s t : State) (v : Word) (tk : Bool), s.busy = true →
    completion (s.cycle (.write 32 0x00C v) tk) = .next t → t.done = true) ∧
  (∀ (s : State) (v : Word), (s.time + 1).toNat % 30 = 0 → (s.cycle (.write 32 0x00C v) true).win = true) ∧
  (∀ (s t : State) (off : BitVec 12) (v : Word) (tk : Bool), s.busy = true → lockedOffset off.toNat →
    completion (s.cycle (.write 32 off v) tk) = .next t →
    t.drop = true ∧ t.cmdLatch = s.cmdLatch ∧ sameOperands s (s.cycle (.write 32 off v) tk)) ∧
  (∀ (s : State) (v : Word), s.busy = false →
    (s.cycle (.write 32 0x008 v) true).sTime = if v.getLsbD 8 = false then s.time else s.targ) ∧
  (∀ s : State, (s.cycle (.read 32 0x030) true).resp = okayRead (s.time.extractLsb' 0 32) ∧
    (s.cycle (.read 32 0x030) true).timeHiSnap = s.time.extractLsb' 32 32 ∧
    (s.cycle (.read 32 0x030) true).time = s.time + 1) ∧
  (∀ (s : State) (v : Word), (s.cycle (.write 32 0x034 v) true).time = (v ++ s.timeLoStage) + 1) ∧
  ∀ (s : State) (e : Event), s.busy = true → s.inputs = [] → e ≠ .reset → e ≠ .complete →
    Host.Core.run Sys2Proof.core 3 { s with inputs := cycleEvents e true true } = completion (s.cycle e true)

/-- The interrupt output is high exactly when some flag is set and enabled, at every instant: clearing the flags lowers it,
and enabling a set flag raises it (R410). -/
def Obligations.InterruptLevel : Prop :=
  ∀ s : State,
    (s.irq = true ↔ s.done = true ∧ s.doneIe = true ∨ s.win = true ∧ s.winIe = true ∨ s.drop = true ∧ s.dropIe = true) ∧
    (s.irq = true ↔ s.statusWord &&& s.ieWord ≠ 0) ∧
    (s.perform (.write 32 0x00C 0xE)).irq = false ∧
    (s.perform (.write 32 0x010 0x0)).irq = false ∧
    (∀ v : Word, s.statusWord &&& v &&& 0xE ≠ 0 → (s.perform (.write 32 0x010 v)).irq = true) ∧
    ∀ (i : Instr) (t : State), exec i s = .next t → s.doneIe = true → t.irq = true

/-! ### Isolation and the whole machine -/

/-- Nothing that happens between a command's accept and its completion, short of a reset, changes the command: the latched
word, the sampled time and the operands stay, and the completion writes what it would have written (R119). -/
def Obligations.RunningCommandIsolated : Prop :=
  ∀ (s : State) (e : Event), s.busy = true → e ≠ .reset →
    (s.perform e).busy = true ∧ (s.perform e).cmdLatch = s.cmdLatch ∧ (s.perform e).sTime = s.sTime ∧
    sameOperands s (s.perform e) ∧
    ∀ (i : Instr) (u v : State), exec i s = .next u → exec i (s.perform e) = .next v →
      v.err = u.err ∧ sameOutputs u v ∧ sameOperands u v

/-- A command's result depends only on its word, the operand registers and S_TIME: from two states that agree on the
operands and S_TIME it ends with the same error code and operands, and every output register is written alike or left
alike (R66). -/
def Obligations.ResultDependsOnOperands : Prop :=
  ∀ (i : Instr) (s t u v : State), sameOperands s t → t.sTime = s.sTime →
    exec i s = .next u → exec i t = .next v →
    v.err = u.err ∧ sameOperands u v ∧
    sameOrKept State.ctrOut s t u v ∧ sameOrKept State.rem s t u v ∧ sameOrKept State.trunc s t u v ∧
    sameOrKept State.code s t u v ∧ sameOrKept State.cdig s t u v ∧ sameOrKept State.vmatch s t u v ∧
    ∀ b, sameOrKept (fun x => x.bytes b (bufSize b)) s t u v

/-- The invariant holds in every state a step reaches from a state that meets it, runs from reset or not: the buffers in
canonical form and inside the map, REM and CTR_OUT in their ranges, and CODE, CODEA, TRUNC and CDIG in agreement (R55 to
R60). -/
def Obligations.StepKeepsInvariant : Prop := ∀ s t : State, s.Inv → step s = .next t → t.Inv

/-- The invariant holds at reset (R450). -/
def Obligations.ResetMeetsInvariant : Prop := State.reset.Inv

/-- Reset gives every register of the map its reset value, clears the hidden state, abandons the command in flight and
lowers irq (R450). While BUSY = 0 only a supported write of CMD sets it: no other event and no step that does not perform
one makes the block busy, so an idle block, as reset leaves it, executes nothing until CMD is written (R451, R67; the
events to come and the bus response are the model's own fields, logs 1, 4, 10 and 14). -/
def Obligations.ResetValues : Prop :=
  (∀ (s : State) (off : BitVec 12), off.toNat % 4 = 0 →
    (s.perform .reset).regValue (regAt off.toNat) =
      if off = 0x000 then 0x4B430007 else if off = 0x004 then 0x1E804040 else if off = 0x038 then 30 else 0) ∧
  (∀ s : State, (s.perform .reset).sTime = 0 ∧ (s.perform .reset).timeHiSnap = 0 ∧
    (s.perform .reset).timeLoStage = 0 ∧ (s.perform .reset).cmdLatch = 0 ∧ (s.perform .reset).busy = false ∧
    (s.perform .reset).irq = false ∧ s.perform .reset = { State.reset with inputs := s.inputs }) ∧
  (∀ (s : State) (e : Event), s.busy = false → (∀ v, e ≠ .write 32 0x008 v) → (s.perform e).busy = false) ∧
  ∀ s t : State, s.busy = false → (∀ v es, s.inputs ≠ .write 32 0x008 v :: es) → step s = .next t →
    t.busy = false ∧ (s.inputs.head? ≠ some .reset → sameOutputs s t ∧ t.err = s.err ∧ t.lastop = s.lastop)

/-- From every state, an event that keeps the rules for careful masters does not set DROP; a careful read gets an OKAY
response with the register's value, and a careful write an OKAY response (R465, R466, R101, R103, R106). -/
def Obligations.CarefulEventsNeverDrop : Prop :=
  (∀ (s : State) (e : Event), carefulEvent s e = true → (s.perform e).drop = true → s.drop = true) ∧
  (∀ (s : State) (bits : Nat) (off : BitVec 12), carefulEvent s (.read bits off) = true →
    (s.perform (.read bits off)).resp = okayRead (s.regValue (regAt off.toNat))) ∧
  ∀ (s : State) (bits : Nat) (off : BitVec 12) (v : Word), carefulEvent s (.write bits off v) = true →
    (s.perform (.write bits off v)).resp = okayWrite

/-- What the assembler makes of each command statement, operand by operand: one write of CMD with the word of R156's table;
a left-out `d`, `w`, `t` or `k` gives DIGITS 0, WINDOW 1, time `now` or key `key`, each on its own; a digit count outside 6 to 8
is refused by HOTP, TOTP and VERIFY. A WINDOW above 15, which the rule does not speak of, is refused: the model's choice
(log 13), and with it every write is of a legal word. -/
def Obligations.AssemblerIssuesLegalWords : Prop :=
  (∀ (d w : Option Nat) (t : Option TimeSrc) (k : Option KeySrc), asmDigitsRefused d →
    (AsmOp.hotp d).accesses = none ∧ (AsmOp.totp d t k).accesses = none ∧ (AsmOp.verify d w t k).accesses = none) ∧
  (∀ (d w : Option Nat) (t : Option TimeSrc) (k : Option KeySrc), 15 < w.getD 1 →
    (AsmOp.verify d w t k).accesses = none) ∧
  (∀ (d w : Option Nat) (t : Option TimeSrc) (k : Option KeySrc), ¬asmDigitsRefused d → w.getD 1 ≤ 15 →
    (AsmOp.hotp d).accesses = writesCmd (0x3 ||| d.getD 0 <<< 4) ∧
    (AsmOp.totp d t k).accesses = writesCmd (0x4 ||| d.getD 0 <<< 4 ||| asmTimeBit t <<< 8 ||| asmKeyBit k <<< 9) ∧
    (AsmOp.verify d w t k).accesses =
      writesCmd (0x5 ||| d.getD 0 <<< 4 ||| asmTimeBit t <<< 8 ||| asmKeyBit k <<< 9 ||| w.getD 1 <<< 10) ∧
    (AsmOp.ctrfor t).accesses = writesCmd (0x8 ||| asmTimeBit t <<< 8) ∧
    (AsmOp.remsec t).accesses = writesCmd (0x9 ||| asmTimeBit t <<< 8)) ∧
  (AsmOp.sha1.accesses = writesCmd 0x1 ∧ AsmOp.hmac.accesses = writesCmd 0x2 ∧ AsmOp.b32enc.accesses = writesCmd 0x6 ∧
    AsmOp.b32dec.accesses = writesCmd 0x7 ∧ AsmOp.zero.accesses = writesCmd 0xA ∧ AsmOp.nop.accesses = writesCmd 0xF) ∧
  ∀ (op : AsmOp) (as : List Access), op.accesses = some as →
    ∃ i, op.instr = some i ∧ as = [.wr .cmd (encode i)] ∧ decode (encode i) = .ok i
end

