-- ==== Sys2Proof/Laws/State.lean ====
section
/-! SUPPORT. One lemma per field for each named update of the state, so that no proof unfolds a record update. -/

namespace Sys2Proof.Machine

/-! ### accept -/

@[simp] theorem State.accept_cmdLatch (s : State) (w : Word) : (s.accept w).cmdLatch = w := rfl
@[simp] theorem State.accept_busy (s : State) (w : Word) : (s.accept w).busy = true := rfl
@[simp] theorem State.accept_done (s : State) (w : Word) : (s.accept w).done = s.done := rfl
@[simp] theorem State.accept_win (s : State) (w : Word) : (s.accept w).win = s.win := rfl
@[simp] theorem State.accept_drop (s : State) (w : Word) : (s.accept w).drop = s.drop := rfl
@[simp] theorem State.accept_err (s : State) (w : Word) : (s.accept w).err = s.err := rfl
@[simp] theorem State.accept_lastop (s : State) (w : Word) : (s.accept w).lastop = s.lastop := rfl
@[simp] theorem State.accept_doneIe (s : State) (w : Word) : (s.accept w).doneIe = s.doneIe := rfl
@[simp] theorem State.accept_winIe (s : State) (w : Word) : (s.accept w).winIe = s.winIe := rfl
@[simp] theorem State.accept_dropIe (s : State) (w : Word) : (s.accept w).dropIe = s.dropIe := rfl
@[simp] theorem State.accept_keylen (s : State) (w : Word) : (s.accept w).keylen = s.keylen := rfl
@[simp] theorem State.accept_msglen (s : State) (w : Word) : (s.accept w).msglen = s.msglen := rfl
@[simp] theorem State.accept_txtlen (s : State) (w : Word) : (s.accept w).txtlen = s.txtlen := rfl
@[simp] theorem State.accept_candlen (s : State) (w : Word) : (s.accept w).candlen = s.candlen := rfl
@[simp] theorem State.accept_ctr (s : State) (w : Word) : (s.accept w).ctr = s.ctr := rfl
@[simp] theorem State.accept_targ (s : State) (w : Word) : (s.accept w).targ = s.targ := rfl
@[simp] theorem State.accept_time (s : State) (w : Word) : (s.accept w).time = s.time := rfl
@[simp] theorem State.accept_sTime (s : State) (w : Word) : (s.accept w).sTime = s.sampledTime w := rfl
@[simp] theorem State.accept_timeHiSnap (s : State) (w : Word) : (s.accept w).timeHiSnap = s.timeHiSnap := rfl
@[simp] theorem State.accept_timeLoStage (s : State) (w : Word) : (s.accept w).timeLoStage = s.timeLoStage := rfl
@[simp] theorem State.accept_ctrOut (s : State) (w : Word) : (s.accept w).ctrOut = s.ctrOut := rfl
@[simp] theorem State.accept_rem (s : State) (w : Word) : (s.accept w).rem = s.rem := rfl
@[simp] theorem State.accept_trunc (s : State) (w : Word) : (s.accept w).trunc = s.trunc := rfl
@[simp] theorem State.accept_code (s : State) (w : Word) : (s.accept w).code = s.code := rfl
@[simp] theorem State.accept_cdig (s : State) (w : Word) : (s.accept w).cdig = s.cdig := rfl
@[simp] theorem State.accept_vmatch (s : State) (w : Word) : (s.accept w).vmatch = s.vmatch := rfl
@[simp] theorem State.accept_mem (s : State) (w : Word) : (s.accept w).mem = s.mem := rfl
@[simp] theorem State.accept_inputs (s : State) (w : Word) : (s.accept w).inputs = s.inputs := rfl
@[simp] theorem State.accept_resp (s : State) (w : Word) : (s.accept w).resp = s.resp := rfl

/-! ### finish -/

@[simp] theorem State.finish_cmdLatch (s : State) (e : ErrCode) : (s.finish e).cmdLatch = s.cmdLatch := rfl
@[simp] theorem State.finish_busy (s : State) (e : ErrCode) : (s.finish e).busy = false := rfl
@[simp] theorem State.finish_done (s : State) (e : ErrCode) : (s.finish e).done = true := rfl
@[simp] theorem State.finish_win (s : State) (e : ErrCode) : (s.finish e).win = s.win := rfl
@[simp] theorem State.finish_drop (s : State) (e : ErrCode) : (s.finish e).drop = s.drop := rfl
@[simp] theorem State.finish_err (s : State) (e : ErrCode) : (s.finish e).err = e := rfl
@[simp] theorem State.finish_lastop (s : State) (e : ErrCode) : (s.finish e).lastop = s.cmdLatch.extractLsb' 0 4 := rfl
@[simp] theorem State.finish_doneIe (s : State) (e : ErrCode) : (s.finish e).doneIe = s.doneIe := rfl
@[simp] theorem State.finish_winIe (s : State) (e : ErrCode) : (s.finish e).winIe = s.winIe := rfl
@[simp] theorem State.finish_dropIe (s : State) (e : ErrCode) : (s.finish e).dropIe = s.dropIe := rfl
@[simp] theorem State.finish_keylen (s : State) (e : ErrCode) : (s.finish e).keylen = s.keylen := rfl
@[simp] theorem State.finish_msglen (s : State) (e : ErrCode) : (s.finish e).msglen = s.msglen := rfl
@[simp] theorem State.finish_txtlen (s : State) (e : ErrCode) : (s.finish e).txtlen = s.txtlen := rfl
@[simp] theorem State.finish_candlen (s : State) (e : ErrCode) : (s.finish e).candlen = s.candlen := rfl
@[simp] theorem State.finish_ctr (s : State) (e : ErrCode) : (s.finish e).ctr = s.ctr := rfl
@[simp] theorem State.finish_targ (s : State) (e : ErrCode) : (s.finish e).targ = s.targ := rfl
@[simp] theorem State.finish_time (s : State) (e : ErrCode) : (s.finish e).time = s.time := rfl
@[simp] theorem State.finish_sTime (s : State) (e : ErrCode) : (s.finish e).sTime = s.sTime := rfl
@[simp] theorem State.finish_timeHiSnap (s : State) (e : ErrCode) : (s.finish e).timeHiSnap = s.timeHiSnap := rfl
@[simp] theorem State.finish_timeLoStage (s : State) (e : ErrCode) : (s.finish e).timeLoStage = s.timeLoStage := rfl
@[simp] theorem State.finish_ctrOut (s : State) (e : ErrCode) : (s.finish e).ctrOut = s.ctrOut := rfl
@[simp] theorem State.finish_rem (s : State) (e : ErrCode) : (s.finish e).rem = s.rem := rfl
@[simp] theorem State.finish_trunc (s : State) (e : ErrCode) : (s.finish e).trunc = s.trunc := rfl
@[simp] theorem State.finish_code (s : State) (e : ErrCode) : (s.finish e).code = s.code := rfl
@[simp] theorem State.finish_cdig (s : State) (e : ErrCode) : (s.finish e).cdig = s.cdig := rfl
@[simp] theorem State.finish_vmatch (s : State) (e : ErrCode) : (s.finish e).vmatch = s.vmatch := rfl
@[simp] theorem State.finish_mem (s : State) (e : ErrCode) : (s.finish e).mem = s.mem := rfl
@[simp] theorem State.finish_inputs (s : State) (e : ErrCode) : (s.finish e).inputs = s.inputs := rfl
@[simp] theorem State.finish_resp (s : State) (e : ErrCode) : (s.finish e).resp = s.resp := rfl

/-! ### dropWrite -/

@[simp] theorem State.dropWrite_cmdLatch (s : State) : (s.dropWrite).cmdLatch = s.cmdLatch := rfl
@[simp] theorem State.dropWrite_busy (s : State) : (s.dropWrite).busy = s.busy := rfl
@[simp] theorem State.dropWrite_done (s : State) : (s.dropWrite).done = s.done := rfl
@[simp] theorem State.dropWrite_win (s : State) : (s.dropWrite).win = s.win := rfl
@[simp] theorem State.dropWrite_drop (s : State) : (s.dropWrite).drop = true := rfl
@[simp] theorem State.dropWrite_err (s : State) : (s.dropWrite).err = s.err := rfl
@[simp] theorem State.dropWrite_lastop (s : State) : (s.dropWrite).lastop = s.lastop := rfl
@[simp] theorem State.dropWrite_doneIe (s : State) : (s.dropWrite).doneIe = s.doneIe := rfl
@[simp] theorem State.dropWrite_winIe (s : State) : (s.dropWrite).winIe = s.winIe := rfl
@[simp] theorem State.dropWrite_dropIe (s : State) : (s.dropWrite).dropIe = s.dropIe := rfl
@[simp] theorem State.dropWrite_keylen (s : State) : (s.dropWrite).keylen = s.keylen := rfl
@[simp] theorem State.dropWrite_msglen (s : State) : (s.dropWrite).msglen = s.msglen := rfl
@[simp] theorem State.dropWrite_txtlen (s : State) : (s.dropWrite).txtlen = s.txtlen := rfl
@[simp] theorem State.dropWrite_candlen (s : State) : (s.dropWrite).candlen = s.candlen := rfl
@[simp] theorem State.dropWrite_ctr (s : State) : (s.dropWrite).ctr = s.ctr := rfl
@[simp] theorem State.dropWrite_targ (s : State) : (s.dropWrite).targ = s.targ := rfl
@[simp] theorem State.dropWrite_time (s : State) : (s.dropWrite).time = s.time := rfl
@[simp] theorem State.dropWrite_sTime (s : State) : (s.dropWrite).sTime = s.sTime := rfl
@[simp] theorem State.dropWrite_timeHiSnap (s : State) : (s.dropWrite).timeHiSnap = s.timeHiSnap := rfl
@[simp] theorem State.dropWrite_timeLoStage (s : State) : (s.dropWrite).timeLoStage = s.timeLoStage := rfl
@[simp] theorem State.dropWrite_ctrOut (s : State) : (s.dropWrite).ctrOut = s.ctrOut := rfl
@[simp] theorem State.dropWrite_rem (s : State) : (s.dropWrite).rem = s.rem := rfl
@[simp] theorem State.dropWrite_trunc (s : State) : (s.dropWrite).trunc = s.trunc := rfl
@[simp] theorem State.dropWrite_code (s : State) : (s.dropWrite).code = s.code := rfl
@[simp] theorem State.dropWrite_cdig (s : State) : (s.dropWrite).cdig = s.cdig := rfl
@[simp] theorem State.dropWrite_vmatch (s : State) : (s.dropWrite).vmatch = s.vmatch := rfl
@[simp] theorem State.dropWrite_mem (s : State) : (s.dropWrite).mem = s.mem := rfl
@[simp] theorem State.dropWrite_inputs (s : State) : (s.dropWrite).inputs = s.inputs := rfl
@[simp] theorem State.dropWrite_resp (s : State) : (s.dropWrite).resp = s.resp := rfl

/-! ### setBuf -/

@[simp] theorem State.setBuf_cmdLatch (s : State) (b : Buffer) (bs : List Byte) : (s.setBuf b bs).cmdLatch = s.cmdLatch := rfl
@[simp] theorem State.setBuf_busy (s : State) (b : Buffer) (bs : List Byte) : (s.setBuf b bs).busy = s.busy := rfl
@[simp] theorem State.setBuf_done (s : State) (b : Buffer) (bs : List Byte) : (s.setBuf b bs).done = s.done := rfl
@[simp] theorem State.setBuf_win (s : State) (b : Buffer) (bs : List Byte) : (s.setBuf b bs).win = s.win := rfl
@[simp] theorem State.setBuf_drop (s : State) (b : Buffer) (bs : List Byte) : (s.setBuf b bs).drop = s.drop := rfl
@[simp] theorem State.setBuf_err (s : State) (b : Buffer) (bs : List Byte) : (s.setBuf b bs).err = s.err := rfl
@[simp] theorem State.setBuf_lastop (s : State) (b : Buffer) (bs : List Byte) : (s.setBuf b bs).lastop = s.lastop := rfl
@[simp] theorem State.setBuf_doneIe (s : State) (b : Buffer) (bs : List Byte) : (s.setBuf b bs).doneIe = s.doneIe := rfl
@[simp] theorem State.setBuf_winIe (s : State) (b : Buffer) (bs : List Byte) : (s.setBuf b bs).winIe = s.winIe := rfl
@[simp] theorem State.setBuf_dropIe (s : State) (b : Buffer) (bs : List Byte) : (s.setBuf b bs).dropIe = s.dropIe := rfl
@[simp] theorem State.setBuf_keylen (s : State) (b : Buffer) (bs : List Byte) : (s.setBuf b bs).keylen = s.keylen := rfl
@[simp] theorem State.setBuf_msglen (s : State) (b : Buffer) (bs : List Byte) : (s.setBuf b bs).msglen = s.msglen := rfl
@[simp] theorem State.setBuf_txtlen (s : State) (b : Buffer) (bs : List Byte) : (s.setBuf b bs).txtlen = s.txtlen := rfl
@[simp] theorem State.setBuf_candlen (s : State) (b : Buffer) (bs : List Byte) : (s.setBuf b bs).candlen = s.candlen := rfl
@[simp] theorem State.setBuf_ctr (s : State) (b : Buffer) (bs : List Byte) : (s.setBuf b bs).ctr = s.ctr := rfl
@[simp] theorem State.setBuf_targ (s : State) (b : Buffer) (bs : List Byte) : (s.setBuf b bs).targ = s.targ := rfl
@[simp] theorem State.setBuf_time (s : State) (b : Buffer) (bs : List Byte) : (s.setBuf b bs).time = s.time := rfl
@[simp] theorem State.setBuf_sTime (s : State) (b : Buffer) (bs : List Byte) : (s.setBuf b bs).sTime = s.sTime := rfl
@[simp] theorem State.setBuf_timeHiSnap (s : State) (b : Buffer) (bs : List Byte) : (s.setBuf b bs).timeHiSnap = s.timeHiSnap := rfl
@[simp] theorem State.setBuf_timeLoStage (s : State) (b : Buffer) (bs : List Byte) : (s.setBuf b bs).timeLoStage = s.timeLoStage := rfl
@[simp] theorem State.setBuf_ctrOut (s : State) (b : Buffer) (bs : List Byte) : (s.setBuf b bs).ctrOut = s.ctrOut := rfl
@[simp] theorem State.setBuf_rem (s : State) (b : Buffer) (bs : List Byte) : (s.setBuf b bs).rem = s.rem := rfl
@[simp] theorem State.setBuf_trunc (s : State) (b : Buffer) (bs : List Byte) : (s.setBuf b bs).trunc = s.trunc := rfl
@[simp] theorem State.setBuf_code (s : State) (b : Buffer) (bs : List Byte) : (s.setBuf b bs).code = s.code := rfl
@[simp] theorem State.setBuf_cdig (s : State) (b : Buffer) (bs : List Byte) : (s.setBuf b bs).cdig = s.cdig := rfl
@[simp] theorem State.setBuf_vmatch (s : State) (b : Buffer) (bs : List Byte) : (s.setBuf b bs).vmatch = s.vmatch := rfl
@[simp] theorem State.setBuf_mem (s : State) (b : Buffer) (bs : List Byte) : (s.setBuf b bs).mem = Memory.setBuf s.mem b bs := rfl
@[simp] theorem State.setBuf_inputs (s : State) (b : Buffer) (bs : List Byte) : (s.setBuf b bs).inputs = s.inputs := rfl
@[simp] theorem State.setBuf_resp (s : State) (b : Buffer) (bs : List Byte) : (s.setBuf b bs).resp = s.resp := rfl

/-! ### setBufWord -/

@[simp] theorem State.setBufWord_cmdLatch (s : State) (b : Buffer) (j : Nat) (v : Word) : (s.setBufWord b j v).cmdLatch = s.cmdLatch := rfl
@[simp] theorem State.setBufWord_busy (s : State) (b : Buffer) (j : Nat) (v : Word) : (s.setBufWord b j v).busy = s.busy := rfl
@[simp] theorem State.setBufWord_done (s : State) (b : Buffer) (j : Nat) (v : Word) : (s.setBufWord b j v).done = s.done := rfl
@[simp] theorem State.setBufWord_win (s : State) (b : Buffer) (j : Nat) (v : Word) : (s.setBufWord b j v).win = s.win := rfl
@[simp] theorem State.setBufWord_drop (s : State) (b : Buffer) (j : Nat) (v : Word) : (s.setBufWord b j v).drop = s.drop := rfl
@[simp] theorem State.setBufWord_err (s : State) (b : Buffer) (j : Nat) (v : Word) : (s.setBufWord b j v).err = s.err := rfl
@[simp] theorem State.setBufWord_lastop (s : State) (b : Buffer) (j : Nat) (v : Word) : (s.setBufWord b j v).lastop = s.lastop := rfl
@[simp] theorem State.setBufWord_doneIe (s : State) (b : Buffer) (j : Nat) (v : Word) : (s.setBufWord b j v).doneIe = s.doneIe := rfl
@[simp] theorem State.setBufWord_winIe (s : State) (b : Buffer) (j : Nat) (v : Word) : (s.setBufWord b j v).winIe = s.winIe := rfl
@[simp] theorem State.setBufWord_dropIe (s : State) (b : Buffer) (j : Nat) (v : Word) : (s.setBufWord b j v).dropIe = s.dropIe := rfl
@[simp] theorem State.setBufWord_keylen (s : State) (b : Buffer) (j : Nat) (v : Word) : (s.setBufWord b j v).keylen = s.keylen := rfl
@[simp] theorem State.setBufWord_msglen (s : State) (b : Buffer) (j : Nat) (v : Word) : (s.setBufWord b j v).msglen = s.msglen := rfl
@[simp] theorem State.setBufWord_txtlen (s : State) (b : Buffer) (j : Nat) (v : Word) : (s.setBufWord b j v).txtlen = s.txtlen := rfl
@[simp] theorem State.setBufWord_candlen (s : State) (b : Buffer) (j : Nat) (v : Word) : (s.setBufWord b j v).candlen = s.candlen := rfl
@[simp] theorem State.setBufWord_ctr (s : State) (b : Buffer) (j : Nat) (v : Word) : (s.setBufWord b j v).ctr = s.ctr := rfl
@[simp] theorem State.setBufWord_targ (s : State) (b : Buffer) (j : Nat) (v : Word) : (s.setBufWord b j v).targ = s.targ := rfl
@[simp] theorem State.setBufWord_time (s : State) (b : Buffer) (j : Nat) (v : Word) : (s.setBufWord b j v).time = s.time := rfl
@[simp] theorem State.setBufWord_sTime (s : State) (b : Buffer) (j : Nat) (v : Word) : (s.setBufWord b j v).sTime = s.sTime := rfl
@[simp] theorem State.setBufWord_timeHiSnap (s : State) (b : Buffer) (j : Nat) (v : Word) : (s.setBufWord b j v).timeHiSnap = s.timeHiSnap := rfl
@[simp] theorem State.setBufWord_timeLoStage (s : State) (b : Buffer) (j : Nat) (v : Word) : (s.setBufWord b j v).timeLoStage = s.timeLoStage := rfl
@[simp] theorem State.setBufWord_ctrOut (s : State) (b : Buffer) (j : Nat) (v : Word) : (s.setBufWord b j v).ctrOut = s.ctrOut := rfl
@[simp] theorem State.setBufWord_rem (s : State) (b : Buffer) (j : Nat) (v : Word) : (s.setBufWord b j v).rem = s.rem := rfl
@[simp] theorem State.setBufWord_trunc (s : State) (b : Buffer) (j : Nat) (v : Word) : (s.setBufWord b j v).trunc = s.trunc := rfl
@[simp] theorem State.setBufWord_code (s : State) (b : Buffer) (j : Nat) (v : Word) : (s.setBufWord b j v).code = s.code := rfl
@[simp] theorem State.setBufWord_cdig (s : State) (b : Buffer) (j : Nat) (v : Word) : (s.setBufWord b j v).cdig = s.cdig := rfl
@[simp] theorem State.setBufWord_vmatch (s : State) (b : Buffer) (j : Nat) (v : Word) : (s.setBufWord b j v).vmatch = s.vmatch := rfl
@[simp] theorem State.setBufWord_mem (s : State) (b : Buffer) (j : Nat) (v : Word) : (s.setBufWord b j v).mem = Memory.fill s.mem (bufBase b + 4 * j) 4 (lanes v) := rfl
@[simp] theorem State.setBufWord_inputs (s : State) (b : Buffer) (j : Nat) (v : Word) : (s.setBufWord b j v).inputs = s.inputs := rfl
@[simp] theorem State.setBufWord_resp (s : State) (b : Buffer) (j : Nat) (v : Word) : (s.setBufWord b j v).resp = s.resp := rfl

/-! ### clearFlags -/

@[simp] theorem State.clearFlags_cmdLatch (s : State) (v : Word) : (s.clearFlags v).cmdLatch = s.cmdLatch := rfl
@[simp] theorem State.clearFlags_busy (s : State) (v : Word) : (s.clearFlags v).busy = s.busy := rfl
@[simp] theorem State.clearFlags_done (s : State) (v : Word) : (s.clearFlags v).done = (s.done && !v.getLsbD 1) := rfl
@[simp] theorem State.clearFlags_win (s : State) (v : Word) : (s.clearFlags v).win = (s.win && !v.getLsbD 2) := rfl
@[simp] theorem State.clearFlags_drop (s : State) (v : Word) : (s.clearFlags v).drop = (s.drop && !v.getLsbD 3) := rfl
@[simp] theorem State.clearFlags_err (s : State) (v : Word) : (s.clearFlags v).err = s.err := rfl
@[simp] theorem State.clearFlags_lastop (s : State) (v : Word) : (s.clearFlags v).lastop = s.lastop := rfl
@[simp] theorem State.clearFlags_doneIe (s : State) (v : Word) : (s.clearFlags v).doneIe = s.doneIe := rfl
@[simp] theorem State.clearFlags_winIe (s : State) (v : Word) : (s.clearFlags v).winIe = s.winIe := rfl
@[simp] theorem State.clearFlags_dropIe (s : State) (v : Word) : (s.clearFlags v).dropIe = s.dropIe := rfl
@[simp] theorem State.clearFlags_keylen (s : State) (v : Word) : (s.clearFlags v).keylen = s.keylen := rfl
@[simp] theorem State.clearFlags_msglen (s : State) (v : Word) : (s.clearFlags v).msglen = s.msglen := rfl
@[simp] theorem State.clearFlags_txtlen (s : State) (v : Word) : (s.clearFlags v).txtlen = s.txtlen := rfl
@[simp] theorem State.clearFlags_candlen (s : State) (v : Word) : (s.clearFlags v).candlen = s.candlen := rfl
@[simp] theorem State.clearFlags_ctr (s : State) (v : Word) : (s.clearFlags v).ctr = s.ctr := rfl
@[simp] theorem State.clearFlags_targ (s : State) (v : Word) : (s.clearFlags v).targ = s.targ := rfl
@[simp] theorem State.clearFlags_time (s : State) (v : Word) : (s.clearFlags v).time = s.time := rfl
@[simp] theorem State.clearFlags_sTime (s : State) (v : Word) : (s.clearFlags v).sTime = s.sTime := rfl
@[simp] theorem State.clearFlags_timeHiSnap (s : State) (v : Word) : (s.clearFlags v).timeHiSnap = s.timeHiSnap := rfl
@[simp] theorem State.clearFlags_timeLoStage (s : State) (v : Word) : (s.clearFlags v).timeLoStage = s.timeLoStage := rfl
@[simp] theorem State.clearFlags_ctrOut (s : State) (v : Word) : (s.clearFlags v).ctrOut = s.ctrOut := rfl
@[simp] theorem State.clearFlags_rem (s : State) (v : Word) : (s.clearFlags v).rem = s.rem := rfl
@[simp] theorem State.clearFlags_trunc (s : State) (v : Word) : (s.clearFlags v).trunc = s.trunc := rfl
@[simp] theorem State.clearFlags_code (s : State) (v : Word) : (s.clearFlags v).code = s.code := rfl
@[simp] theorem State.clearFlags_cdig (s : State) (v : Word) : (s.clearFlags v).cdig = s.cdig := rfl
@[simp] theorem State.clearFlags_vmatch (s : State) (v : Word) : (s.clearFlags v).vmatch = s.vmatch := rfl
@[simp] theorem State.clearFlags_mem (s : State) (v : Word) : (s.clearFlags v).mem = s.mem := rfl
@[simp] theorem State.clearFlags_inputs (s : State) (v : Word) : (s.clearFlags v).inputs = s.inputs := rfl
@[simp] theorem State.clearFlags_resp (s : State) (v : Word) : (s.clearFlags v).resp = s.resp := rfl

/-! ### setIe -/

@[simp] theorem State.setIe_cmdLatch (s : State) (v : Word) : (s.setIe v).cmdLatch = s.cmdLatch := rfl
@[simp] theorem State.setIe_busy (s : State) (v : Word) : (s.setIe v).busy = s.busy := rfl
@[simp] theorem State.setIe_done (s : State) (v : Word) : (s.setIe v).done = s.done := rfl
@[simp] theorem State.setIe_win (s : State) (v : Word) : (s.setIe v).win = s.win := rfl
@[simp] theorem State.setIe_drop (s : State) (v : Word) : (s.setIe v).drop = s.drop := rfl
@[simp] theorem State.setIe_err (s : State) (v : Word) : (s.setIe v).err = s.err := rfl
@[simp] theorem State.setIe_lastop (s : State) (v : Word) : (s.setIe v).lastop = s.lastop := rfl
@[simp] theorem State.setIe_doneIe (s : State) (v : Word) : (s.setIe v).doneIe = v.getLsbD 1 := rfl
@[simp] theorem State.setIe_winIe (s : State) (v : Word) : (s.setIe v).winIe = v.getLsbD 2 := rfl
@[simp] theorem State.setIe_dropIe (s : State) (v : Word) : (s.setIe v).dropIe = v.getLsbD 3 := rfl
@[simp] theorem State.setIe_keylen (s : State) (v : Word) : (s.setIe v).keylen = s.keylen := rfl
@[simp] theorem State.setIe_msglen (s : State) (v : Word) : (s.setIe v).msglen = s.msglen := rfl
@[simp] theorem State.setIe_txtlen (s : State) (v : Word) : (s.setIe v).txtlen = s.txtlen := rfl
@[simp] theorem State.setIe_candlen (s : State) (v : Word) : (s.setIe v).candlen = s.candlen := rfl
@[simp] theorem State.setIe_ctr (s : State) (v : Word) : (s.setIe v).ctr = s.ctr := rfl
@[simp] theorem State.setIe_targ (s : State) (v : Word) : (s.setIe v).targ = s.targ := rfl
@[simp] theorem State.setIe_time (s : State) (v : Word) : (s.setIe v).time = s.time := rfl
@[simp] theorem State.setIe_sTime (s : State) (v : Word) : (s.setIe v).sTime = s.sTime := rfl
@[simp] theorem State.setIe_timeHiSnap (s : State) (v : Word) : (s.setIe v).timeHiSnap = s.timeHiSnap := rfl
@[simp] theorem State.setIe_timeLoStage (s : State) (v : Word) : (s.setIe v).timeLoStage = s.timeLoStage := rfl
@[simp] theorem State.setIe_ctrOut (s : State) (v : Word) : (s.setIe v).ctrOut = s.ctrOut := rfl
@[simp] theorem State.setIe_rem (s : State) (v : Word) : (s.setIe v).rem = s.rem := rfl
@[simp] theorem State.setIe_trunc (s : State) (v : Word) : (s.setIe v).trunc = s.trunc := rfl
@[simp] theorem State.setIe_code (s : State) (v : Word) : (s.setIe v).code = s.code := rfl
@[simp] theorem State.setIe_cdig (s : State) (v : Word) : (s.setIe v).cdig = s.cdig := rfl
@[simp] theorem State.setIe_vmatch (s : State) (v : Word) : (s.setIe v).vmatch = s.vmatch := rfl
@[simp] theorem State.setIe_mem (s : State) (v : Word) : (s.setIe v).mem = s.mem := rfl
@[simp] theorem State.setIe_inputs (s : State) (v : Word) : (s.setIe v).inputs = s.inputs := rfl
@[simp] theorem State.setIe_resp (s : State) (v : Word) : (s.setIe v).resp = s.resp := rfl

/-! ### ticked -/

@[simp] theorem State.ticked_cmdLatch (s : State) : (s.ticked).cmdLatch = s.cmdLatch := rfl
@[simp] theorem State.ticked_busy (s : State) : (s.ticked).busy = s.busy := rfl
@[simp] theorem State.ticked_done (s : State) : (s.ticked).done = s.done := rfl
@[simp] theorem State.ticked_win (s : State) : (s.ticked).win = (s.win || decide ((s.time + 1).toNat % Config.timeStep = 0)) := rfl
@[simp] theorem State.ticked_drop (s : State) : (s.ticked).drop = s.drop := rfl
@[simp] theorem State.ticked_err (s : State) : (s.ticked).err = s.err := rfl
@[simp] theorem State.ticked_lastop (s : State) : (s.ticked).lastop = s.lastop := rfl
@[simp] theorem State.ticked_doneIe (s : State) : (s.ticked).doneIe = s.doneIe := rfl
@[simp] theorem State.ticked_winIe (s : State) : (s.ticked).winIe = s.winIe := rfl
@[simp] theorem State.ticked_dropIe (s : State) : (s.ticked).dropIe = s.dropIe := rfl
@[simp] theorem State.ticked_keylen (s : State) : (s.ticked).keylen = s.keylen := rfl
@[simp] theorem State.ticked_msglen (s : State) : (s.ticked).msglen = s.msglen := rfl
@[simp] theorem State.ticked_txtlen (s : State) : (s.ticked).txtlen = s.txtlen := rfl
@[simp] theorem State.ticked_candlen (s : State) : (s.ticked).candlen = s.candlen := rfl
@[simp] theorem State.ticked_ctr (s : State) : (s.ticked).ctr = s.ctr := rfl
@[simp] theorem State.ticked_targ (s : State) : (s.ticked).targ = s.targ := rfl
@[simp] theorem State.ticked_time (s : State) : (s.ticked).time = s.time + 1 := rfl
@[simp] theorem State.ticked_sTime (s : State) : (s.ticked).sTime = s.sTime := rfl
@[simp] theorem State.ticked_timeHiSnap (s : State) : (s.ticked).timeHiSnap = s.timeHiSnap := rfl
@[simp] theorem State.ticked_timeLoStage (s : State) : (s.ticked).timeLoStage = s.timeLoStage := rfl
@[simp] theorem State.ticked_ctrOut (s : State) : (s.ticked).ctrOut = s.ctrOut := rfl
@[simp] theorem State.ticked_rem (s : State) : (s.ticked).rem = s.rem := rfl
@[simp] theorem State.ticked_trunc (s : State) : (s.ticked).trunc = s.trunc := rfl
@[simp] theorem State.ticked_code (s : State) : (s.ticked).code = s.code := rfl
@[simp] theorem State.ticked_cdig (s : State) : (s.ticked).cdig = s.cdig := rfl
@[simp] theorem State.ticked_vmatch (s : State) : (s.ticked).vmatch = s.vmatch := rfl
@[simp] theorem State.ticked_mem (s : State) : (s.ticked).mem = s.mem := rfl
@[simp] theorem State.ticked_inputs (s : State) : (s.ticked).inputs = s.inputs := rfl
@[simp] theorem State.ticked_resp (s : State) : (s.ticked).resp = s.resp := rfl


end Sys2Proof.Machine
end

