-- ==== Sys2Proof/Laws/Exec.lean ====
section
/-! SUPPORT. Said once: how every command ends (R151, R152, R153) and what a step does (R114). -/

namespace Sys2Proof.Machine

/-! ### The result function of each command -/

/-- The result function of R153, one line per command. -/
def resultOf (i : Instr) (s : State) : Result :=
  match i with
  | .sha1 => sha1Result s
  | .hmac => hmacResult s
  | .hotp d => hotpResult d s
  | .totp d _ k => totpResult d k s
  | .verify d _ k w => verifyResult d k w s
  | .b32enc => b32encResult s
  | .b32dec => b32decResult s
  | .ctrfor _ => ctrforResult s
  | .remsec _ => remsecResult s
  | .zero => .ok s.zeroed
  | .nop => .ok s

/-- Every command commits its result function's answer. -/
theorem exec_eq_commit (i : Instr) (s : State) : exec i s = .next (s.commit (resultOf i s)) := by
  cases i <;> rfl

@[simp] theorem commit_ok (s t : State) : s.commit (.ok t) = t.finish .ok := rfl

@[simp] theorem commit_error (s : State) (e : ErrCode) : s.commit (.error e) = s.finish e := rfl

/-- How a command ends: in success from the state with its writes made, or in an error with no write. -/
theorem exec_cases {i : Instr} {s t : State} (h : exec i s = .next t) :
    (∃ u, resultOf i s = .ok u ∧ t = u.finish .ok) ∨ ∃ e, resultOf i s = .error e ∧ t = s.finish e := by
  rw [exec_eq_commit] at h
  cases hr : resultOf i s with
  | ok u => rw [hr] at h; cases h; exact .inl ⟨u, rfl, rfl⟩
  | error e => rw [hr] at h; cases h; exact .inr ⟨e, rfl, rfl⟩

/-! ### What a step does -/

/-- The completion of the latched word, when it is a command. -/
theorem completion_of_decode {s : State} {i : Instr} (h : decode s.cmdLatch = .ok i) : completion s = exec i s := by
  simp [completion, h]

/-- The completion of the latched word, when it is none. -/
theorem completion_of_reject {s : State} {r : Reject} (h : decode s.cmdLatch = .error r) :
    completion s = .next (s.finish .illegalCmd) := by
  simp only [completion, h]; rfl

/-- A completion always answers a next state. -/
theorem completion_next (s : State) : ∃ t, completion s = .next t := by
  cases h : decode s.cmdLatch with
  | ok i => exact ⟨_, (completion_of_decode h).trans (exec_eq_commit i s)⟩
  | error r => exact ⟨_, completion_of_reject h⟩

/-- Everything a step can do: the engine completes the command in flight, an idle block stays as it is, or an event from
outside is performed. -/
theorem step_cases {s t : State} (h : step s = .next t) :
    (s.inputs = [] ∧ s.busy = true ∧ completion s = .next t) ∨
    (s.inputs = [] ∧ s.busy = false ∧ t = s) ∨
    (∃ es, s.inputs = .complete :: es ∧ s.busy = true ∧ completion { s with inputs := es } = .next t) ∨
    (∃ es, s.inputs = .complete :: es ∧ s.busy = false ∧ t = { s with inputs := es }) ∨
    (∃ e es, s.inputs = e :: es ∧ e ≠ .complete ∧ t = State.perform { s with inputs := es } e) := by
  unfold step at h
  split at h
  · next hi =>
    split at h
    · next hb => exact .inl ⟨hi, hb, h⟩
    · next hb => cases h; exact .inr (.inl ⟨hi, by simpa using hb, rfl⟩)
  · next es hi =>
    split at h
    · next hb => exact .inr (.inr (.inl ⟨es, hi, hb, h⟩))
    · next hb => cases h; exact .inr (.inr (.inr (.inl ⟨es, hi, by simpa using hb, rfl⟩)))
  · next e es hne hi =>
    cases h
    exact .inr (.inr (.inr (.inr ⟨e, es, hi, hne, rfl⟩)))

end Sys2Proof.Machine
end

