-- ==== Sys2Proof/Laws/Memory.lean ====
section
/-! SUPPORT. The laws of the buffer bytes: what a read gives after each operation, and that each operation keeps the
canonical form. -/

namespace Sys2Proof.Machine

/-! ### Reads -/

@[simp] theorem Memory.read_nil (a : Nat) : Memory.read [] a = 0 := rfl

theorem Memory.read_cons (c : Host.Cell) (m : Memory) (a : Nat) :
    Memory.read (c :: m) a = if c.1 = a then c.2 else Memory.read m a := rfl

theorem Memory.read_erase (m : Memory) (a x : Nat) :
    Memory.read (Memory.erase m a) x = if x = a then 0 else Memory.read m x := by
  induction m with
  | nil => simp [Memory.erase]
  | cons c m ih =>
    by_cases hc : c.1 = a
    · have hd : Memory.erase (c :: m) a = Memory.erase m a := by simp [Memory.erase, hc]
      rw [hd, ih, Memory.read_cons]
      by_cases hx : x = a
      · simp [hx]
      · simp [hx, show c.1 ≠ x by omega]
    · have hd : Memory.erase (c :: m) a = c :: Memory.erase m a := by simp [Memory.erase, hc]
      rw [hd, Memory.read_cons, Memory.read_cons, ih]
      by_cases hx : x = a
      · simp [hx, hc]
      · simp [hx]

theorem Memory.read_insert (m : Memory) (a : Nat) (b : Byte) (x : Nat) (h : ∀ c ∈ m, c.1 ≠ a) :
    Memory.read (Memory.insert m a b) x = if x = a then b else Memory.read m x := by
  induction m with
  | nil => simp [Memory.insert, Memory.read_cons, eq_comm]
  | cons c m ih =>
    have hc : c.1 ≠ a := h c (by simp)
    simp only [Memory.insert]
    split
    · rw [Memory.read_cons]; simp [eq_comm]
    · rw [Memory.read_cons, Memory.read_cons, ih fun d hd => h d (by simp [hd])]
      by_cases hx : x = a
      · simp [hx, hc]
      · simp [hx]

theorem Memory.mem_erase {m : Memory} {a : Nat} {c : Host.Cell} : c ∈ Memory.erase m a ↔ c ∈ m ∧ c.1 ≠ a := by
  simp [Memory.erase]

theorem Memory.mem_insert {m : Memory} {a : Nat} {b : Byte} {c : Host.Cell} :
    c ∈ Memory.insert m a b ↔ c = (a, b) ∨ c ∈ m := by
  induction m with
  | nil => simp [Memory.insert]
  | cons d m ih =>
    simp only [Memory.insert]
    split
    · simp
    · simp only [List.mem_cons, ih]; tauto

/-- A read after a write: the byte written at its address, and every other byte as it was. -/
theorem Memory.read_write (m : Memory) (a : Nat) (b : Byte) (x : Nat) :
    Memory.read (Memory.write m a b) x = if x = a then b else Memory.read m x := by
  unfold Memory.write
  split
  · next hb => simp [Memory.read_erase, hb]
  · rw [Memory.read_insert _ _ _ _ fun c hc => (Memory.mem_erase.mp hc).2, Memory.read_erase]
    split <;> simp_all

theorem Memory.mem_write {m : Memory} {a : Nat} {b : Byte} {c : Host.Cell} (h : c ∈ Memory.write m a b) :
    c.1 = a ∨ c ∈ m := by
  unfold Memory.write at h
  split at h
  · exact .inr (Memory.mem_erase.mp h).1
  · rcases Memory.mem_insert.mp h with rfl | h
    · exact .inl rfl
    · exact .inr (Memory.mem_erase.mp h).1

/-- A read after a fill: the byte of the list, or 0 past its end, inside the filled range; every other byte as it was. -/
theorem Memory.read_fill (m : Memory) (a n : Nat) (bs : List Byte) (x : Nat) :
    Memory.read (Memory.fill m a n bs) x = if a ≤ x ∧ x < a + n then bs.getD (x - a) 0 else Memory.read m x := by
  induction n generalizing a bs with
  | zero => simp only [Memory.fill]; rw [if_neg (by omega)]
  | succ n ih =>
    rw [Memory.fill, Memory.read_write, ih]
    by_cases hx : x = a
    · subst hx; cases bs <;> simp
    · by_cases hr : a + 1 ≤ x ∧ x < a + 1 + n
      · rw [if_neg hx, if_pos hr, if_pos (by omega)]
        obtain ⟨k, rfl⟩ : ∃ k, x = a + 1 + k := ⟨x - (a + 1), by omega⟩
        cases bs with
        | nil => simp
        | cons b bs => simp [show a + 1 + k - a = k + 1 by omega]
      · rw [if_neg hx, if_neg hr, if_neg (by omega)]

theorem Memory.mem_fill {m : Memory} {a n : Nat} {bs : List Byte} {c : Host.Cell} (h : c ∈ Memory.fill m a n bs) :
    (a ≤ c.1 ∧ c.1 < a + n) ∨ c ∈ m := by
  induction n generalizing a bs with
  | zero => exact .inr h
  | succ n ih =>
    rcases Memory.mem_write h with h | h
    · exact .inl (by omega)
    · rcases ih h with h | h
      · exact .inl (by omega)
      · exact .inr h

/-! ### The canonical form -/

theorem Memory.wf_nil : Memory.wf [] := by simp [Memory.wf]

theorem Memory.wf_erase {m : Memory} (h : Memory.wf m) (a : Nat) : Memory.wf (Memory.erase m a) :=
  ⟨h.1.filter _, fun c hc => h.2 c (Memory.mem_erase.mp hc).1⟩

theorem Memory.wf_insert {m : Memory} (h : Memory.wf m) {a : Nat} {b : Byte} (hb : b ≠ 0) (ha : ∀ c ∈ m, c.1 ≠ a) :
    Memory.wf (Memory.insert m a b) := by
  refine ⟨?_, fun c hc => ?_⟩
  · have hp := h.1
    clear h
    induction m with
    | nil => simp [Memory.insert]
    | cons c m ih =>
      obtain ⟨h1, h2⟩ := List.pairwise_cons.mp hp
      have hca := ha c (by simp)
      simp only [Memory.insert]
      split
      · next hlt =>
        refine List.pairwise_cons.mpr ⟨fun d hd => ?_, hp⟩
        rcases List.mem_cons.mp hd with rfl | hd
        · exact hlt
        · exact Nat.lt_trans hlt (h1 d hd)
      · next hlt =>
        refine List.pairwise_cons.mpr ⟨fun d hd => ?_, ih (fun d hd => ha d (by simp [hd])) h2⟩
        rcases Memory.mem_insert.mp hd with rfl | hd
        · simp only; omega
        · exact h1 d hd
  · rcases Memory.mem_insert.mp hc with rfl | hc
    · exact hb
    · exact h.2 c hc

/-- A write keeps the canonical form. -/
theorem Memory.wf_write {m : Memory} (h : Memory.wf m) (a : Nat) (b : Byte) : Memory.wf (Memory.write m a b) := by
  unfold Memory.write
  split
  · exact Memory.wf_erase h a
  · next hb => exact Memory.wf_insert (Memory.wf_erase h a) hb fun c hc => (Memory.mem_erase.mp hc).2

/-- A fill keeps the canonical form. -/
theorem Memory.wf_fill {m : Memory} (h : Memory.wf m) (a n : Nat) (bs : List Byte) :
    Memory.wf (Memory.fill m a n bs) := by
  induction n generalizing a bs with
  | zero => exact h
  | succ n ih => exact Memory.wf_write (ih (a + 1) bs.tail) a _

/-- Two memories in canonical form that read the same everywhere are the same list. -/
theorem Memory.eq_of_read_eq {m n : Memory} (hm : Memory.wf m) (hn : Memory.wf n)
    (h : ∀ a, Memory.read m a = Memory.read n a) : m = n := by
  have read_lt : ∀ {k : Memory} {a : Nat}, (∀ c ∈ k, a < c.1) → Memory.read k a = 0 := by
    intro k a hk
    induction k with
    | nil => rfl
    | cons c k ih =>
      have := hk c (by simp)
      rw [Memory.read_cons, if_neg (by omega), ih fun d hd => hk d (by simp [hd])]
  induction m generalizing n with
  | nil =>
    cases n with
    | nil => rfl
    | cons d n =>
      have := h d.1
      rw [Memory.read_cons, if_pos rfl] at this
      exact absurd this.symm (hn.2 d (by simp))
  | cons c m ih =>
    obtain ⟨hc, hm'⟩ := List.pairwise_cons.mp hm.1
    cases n with
    | nil =>
      have := h c.1
      rw [Memory.read_cons, if_pos rfl] at this
      exact absurd this (hm.2 c (by simp))
    | cons d n =>
      obtain ⟨hd, hn'⟩ := List.pairwise_cons.mp hn.1
      have key : c.1 = d.1 := by
        rcases Nat.lt_trichotomy c.1 d.1 with hlt | heq | hlt
        · have := h c.1
          rw [Memory.read_cons, if_pos rfl, Memory.read_cons, if_neg (by omega),
            read_lt fun e he => Nat.lt_trans hlt (hd e he)] at this
          exact absurd this (hm.2 c (by simp))
        · exact heq
        · have := h d.1
          rw [Memory.read_cons, if_neg (by omega), Memory.read_cons, if_pos rfl,
            read_lt fun e he => Nat.lt_trans hlt (hc e he)] at this
          exact absurd this.symm (hn.2 d (by simp))
      have hval : c.2 = d.2 := by
        have := h c.1
        rwa [Memory.read_cons, if_pos rfl, Memory.read_cons, if_pos key.symm] at this
      have hrest : m = n := by
        refine ih ⟨hm', fun e he => hm.2 e (by simp [he])⟩ ⟨hn', fun e he => hn.2 e (by simp [he])⟩ fun a => ?_
        have ha := h a
        rw [Memory.read_cons, Memory.read_cons] at ha
        by_cases hca : c.1 = a
        · subst hca
          rw [read_lt hc, read_lt fun e he => by have := hd e he; omega]
        · rwa [if_neg hca, if_neg (by omega)] at ha
      rw [hrest, Prod.ext key hval]

/-! ### Buffers -/

/-- A byte after a whole buffer was written. -/
theorem Memory.read_setBuf (m : Memory) (b : Buffer) (bs : List Byte) (x : Nat) :
    Memory.read (Memory.setBuf m b bs) x =
      if bufBase b ≤ x ∧ x < bufBase b + bufSize b then bs.getD (x - bufBase b) 0 else Memory.read m x :=
  Memory.read_fill m _ _ bs x

/-- Writing a whole buffer keeps the canonical form. -/
theorem Memory.wf_setBuf {m : Memory} (h : Memory.wf m) (b : Buffer) (bs : List Byte) :
    Memory.wf (Memory.setBuf m b bs) := Memory.wf_fill h _ _ bs

/-- A byte after every buffer was cleared. -/
theorem Memory.read_clearBuffers (m : Memory) (x : Nat) :
    Memory.read (Memory.clearBuffers m) x = if allBuffers.any (inBuffer x) then 0 else Memory.read m x := by
  induction m with
  | nil => simp [Memory.clearBuffers]
  | cons c m ih =>
    by_cases hc : allBuffers.any (inBuffer c.1) = true
    · have hd : Memory.clearBuffers (c :: m) = Memory.clearBuffers m := by simp [Memory.clearBuffers, hc]
      rw [hd, ih, Memory.read_cons]
      by_cases hx : c.1 = x
      · rw [← hx, if_pos hc, if_pos hc]
      · rw [if_neg hx]
    · have hd : Memory.clearBuffers (c :: m) = c :: Memory.clearBuffers m := by simp [Memory.clearBuffers, hc]
      rw [hd, Memory.read_cons, Memory.read_cons, ih]
      by_cases hx : c.1 = x
      · rw [← hx, if_pos rfl, if_neg hc, if_pos rfl]
      · rw [if_neg hx, if_neg hx]

/-- Clearing every buffer keeps the canonical form. -/
theorem Memory.wf_clearBuffers {m : Memory} (h : Memory.wf m) : Memory.wf (Memory.clearBuffers m) :=
  ⟨h.1.filter _, fun c hc => h.2 c (List.mem_filter.mp hc).1⟩

/-- A byte of a buffer lies in that buffer. -/
theorem inBuffer_self {b : Buffer} {i : Nat} (h : i < bufSize b) : inBuffer (bufBase b + i) b = true := by
  simp [inBuffer, h]

theorem mem_allBuffers (b : Buffer) : b ∈ allBuffers := by cases b <;> decide

theorem State.byte_setBuf_same (s : State) (b : Buffer) (bs : List Byte) {i : Nat} (h : i < bufSize b) :
    (s.setBuf b bs).byte b i = bs.getD i 0 := by
  simp only [State.byte, State.setBuf, Memory.read_setBuf]
  rw [if_pos (by omega), Nat.add_sub_cancel_left]

/-- Buffers do not overlap: the bytes of one are outside every other. -/
theorem buffers_disjoint {b c : Buffer} (h : b ≠ c) {i : Nat} (hi : i < bufSize c) :
    ¬(bufBase b ≤ bufBase c + i ∧ bufBase c + i < bufBase b + bufSize b) := by
  cases b <;> cases c <;> first
    | exact absurd rfl h
    | (simp only [bufBase, bufSize, Config.candMax, Config.digestSize, Config.keyMax, Config.msgMax, Config.txtMax] at *
       omega)

theorem State.byte_setBuf_other (s : State) {b c : Buffer} (bs : List Byte) (h : b ≠ c) {i : Nat} (hi : i < bufSize c) :
    (s.setBuf b bs).byte c i = s.byte c i := by
  simp only [State.byte, State.setBuf, Memory.read_setBuf]
  rw [if_neg (buffers_disjoint h hi)]

/-- A whole buffer after it was written: the list, and zeros up to the buffer's size. -/
theorem State.bytes_setBuf_same (s : State) (b : Buffer) {bs : List Byte} (h : bs.length ≤ bufSize b) :
    (s.setBuf b bs).bytes b (bufSize b) = bs ++ List.replicate (bufSize b - bs.length) 0 := by
  apply List.ext_getElem
  · simp [State.bytes]; omega
  · intro i h1 h2
    have hi : i < bufSize b := by simpa [State.bytes] using h1
    simp only [State.bytes, List.getElem_map, List.getElem_range, State.byte_setBuf_same _ _ _ hi]
    by_cases hl : i < bs.length
    · rw [List.getElem_append_left hl]; simp [hl]
    · rw [List.getElem_append_right (by omega)]; simp [hl]

theorem State.bytes_setBuf_other (s : State) {b c : Buffer} (bs : List Byte) (h : b ≠ c) {n : Nat}
    (hn : n ≤ bufSize c) : (s.setBuf b bs).bytes c n = s.bytes c n := by
  simp only [State.bytes]
  refine List.map_congr_left fun i hi => ?_
  exact State.byte_setBuf_other s bs h (by have := List.mem_range.mp hi; omega)

end Sys2Proof.Machine
end

