-- ==== Sys2Proof/Laws/PerInstr.lean ====
section
/-! SUPPORT. Statements for all commands, one lemma per constructor: the word the encoder writes for a well-formed
command is a legal word, and its OP field is the command's number in the opcode map (R146, R147). -/

namespace Sys2Proof.Laws.EncodeLegal

/-- The OP of each command (R146). -/
def opOf : Instr → BitVec 4
  | .sha1 => 0x1
  | .hmac => 0x2
  | .hotp _ => 0x3
  | .totp _ _ _ => 0x4
  | .verify _ _ _ _ => 0x5
  | .b32enc => 0x6
  | .b32dec => 0x7
  | .ctrfor _ => 0x8
  | .remsec _ => 0x9
  | .zero => 0xA
  | .nop => 0xF

/-- The encoded word of a well-formed command is legal and carries the command's OP (R146, R147). -/
def Statement (i : Instr) : Prop := i.wellFormed = true → legal (encode i) = true ∧ cmdOp (encode i) = opOf i

theorem hotp_words : ∀ d : Fin 16, legal (encode (.hotp d)) = true ∧ cmdOp (encode (.hotp d)) = 0x3 := by
  decide +kernel

theorem totp_words : ∀ d : Fin 16, ∀ a b : Bool,
    let t : TimeSrc := if a then .arg else .now
    let k : KeySrc := if b then .txt else .key
    legal (encode (.totp d t k)) = true ∧ cmdOp (encode (.totp d t k)) = 0x4 := by
  decide +kernel

theorem verify_words : ∀ d w : Fin 16, ∀ a b : Bool,
    let t : TimeSrc := if a then .arg else .now
    let k : KeySrc := if b then .txt else .key
    legal (encode (.verify d t k w)) = true ∧ cmdOp (encode (.verify d t k w)) = 0x5 := by
  decide +kernel

theorem sha1 : Statement .sha1 := fun _ => by decide

theorem hmac : Statement .hmac := fun _ => by decide

theorem hotp (d : Nat) : Statement (.hotp d) := fun h =>
  hotp_words ⟨d, by simpa [Instr.wellFormed, fitsNibble] using h⟩

theorem totp (d : Nat) (t : TimeSrc) (k : KeySrc) : Statement (.totp d t k) := fun h => by
  have := totp_words ⟨d, by simpa [Instr.wellFormed, fitsNibble] using h⟩ (t == .arg) (k == .txt)
  cases t <;> cases k <;> exact this

theorem verify (d : Nat) (t : TimeSrc) (k : KeySrc) (w : Nat) : Statement (.verify d t k w) := fun h => by
  obtain ⟨hd, hw⟩ : d < 16 ∧ w < 16 := by simpa [Instr.wellFormed, fitsNibble] using h
  have := verify_words ⟨d, hd⟩ ⟨w, hw⟩ (t == .arg) (k == .txt)
  cases t <;> cases k <;> exact this

theorem b32enc : Statement .b32enc := fun _ => by decide

theorem b32dec : Statement .b32dec := fun _ => by decide

theorem ctrfor (t : TimeSrc) : Statement (.ctrfor t) := fun _ => by cases t <;> decide

theorem remsec (t : TimeSrc) : Statement (.remsec t) := fun _ => by cases t <;> decide

theorem zero : Statement .zero := fun _ => by decide

theorem nop : Statement .nop := fun _ => by decide

end Sys2Proof.Laws.EncodeLegal
end

