-- ==== Sys2Proof/Laws/Writes.lean ====
section
/-! SUPPORT. One lemma per field for each update a command makes of its outputs. -/

namespace Sys2Proof.Machine

/-! ### setCode -/

@[simp] theorem State.setCode_cmdLatch (s : State) (o : HotpOut) (d : Nat) : (s.setCode o d).cmdLatch = s.cmdLatch := rfl
@[simp] theorem State.setCode_busy (s : State) (o : HotpOut) (d : Nat) : (s.setCode o d).busy = s.busy := rfl
@[simp] theorem State.setCode_done (s : State) (o : HotpOut) (d : Nat) : (s.setCode o d).done = s.done := rfl
@[simp] theorem State.setCode_win (s : State) (o : HotpOut) (d : Nat) : (s.setCode o d).win = s.win := rfl
@[simp] theorem State.setCode_drop (s : State) (o : HotpOut) (d : Nat) : (s.setCode o d).drop = s.drop := rfl
@[simp] theorem State.setCode_err (s : State) (o : HotpOut) (d : Nat) : (s.setCode o d).err = s.err := rfl
@[simp] theorem State.setCode_lastop (s : State) (o : HotpOut) (d : Nat) : (s.setCode o d).lastop = s.lastop := rfl
@[simp] theorem State.setCode_doneIe (s : State) (o : HotpOut) (d : Nat) : (s.setCode o d).doneIe = s.doneIe := rfl
@[simp] theorem State.setCode_winIe (s : State) (o : HotpOut) (d : Nat) : (s.setCode o d).winIe = s.winIe := rfl
@[simp] theorem State.setCode_dropIe (s : State) (o : HotpOut) (d : Nat) : (s.setCode o d).dropIe = s.dropIe := rfl
@[simp] theorem State.setCode_keylen (s : State) (o : HotpOut) (d : Nat) : (s.setCode o d).keylen = s.keylen := rfl
@[simp] theorem State.setCode_msglen (s : State) (o : HotpOut) (d : Nat) : (s.setCode o d).msglen = s.msglen := rfl
@[simp] theorem State.setCode_txtlen (s : State) (o : HotpOut) (d : Nat) : (s.setCode o d).txtlen = s.txtlen := rfl
@[simp] theorem State.setCode_candlen (s : State) (o : HotpOut) (d : Nat) : (s.setCode o d).candlen = s.candlen := rfl
@[simp] theorem State.setCode_ctr (s : State) (o : HotpOut) (d : Nat) : (s.setCode o d).ctr = s.ctr := rfl
@[simp] theorem State.setCode_targ (s : State) (o : HotpOut) (d : Nat) : (s.setCode o d).targ = s.targ := rfl
@[simp] theorem State.setCode_time (s : State) (o : HotpOut) (d : Nat) : (s.setCode o d).time = s.time := rfl
@[simp] theorem State.setCode_sTime (s : State) (o : HotpOut) (d : Nat) : (s.setCode o d).sTime = s.sTime := rfl
@[simp] theorem State.setCode_timeHiSnap (s : State) (o : HotpOut) (d : Nat) : (s.setCode o d).timeHiSnap = s.timeHiSnap := rfl
@[simp] theorem State.setCode_timeLoStage (s : State) (o : HotpOut) (d : Nat) : (s.setCode o d).timeLoStage = s.timeLoStage := rfl
@[simp] theorem State.setCode_ctrOut (s : State) (o : HotpOut) (d : Nat) : (s.setCode o d).ctrOut = s.ctrOut := rfl
@[simp] theorem State.setCode_rem (s : State) (o : HotpOut) (d : Nat) : (s.setCode o d).rem = s.rem := rfl
@[simp] theorem State.setCode_trunc (s : State) (o : HotpOut) (d : Nat) : (s.setCode o d).trunc = BitVec.ofNat 31 o.p := rfl
@[simp] theorem State.setCode_code (s : State) (o : HotpOut) (d : Nat) : (s.setCode o d).code = BitVec.ofNat 27 o.code := rfl
@[simp] theorem State.setCode_cdig (s : State) (o : HotpOut) (d : Nat) : (s.setCode o d).cdig = BitVec.ofNat 4 d := rfl
@[simp] theorem State.setCode_vmatch (s : State) (o : HotpOut) (d : Nat) : (s.setCode o d).vmatch = s.vmatch := rfl
@[simp] theorem State.setCode_mem (s : State) (o : HotpOut) (d : Nat) : (s.setCode o d).mem = Memory.setBuf (Memory.setBuf s.mem .digest o.digest) .codea o.ascii := rfl
@[simp] theorem State.setCode_inputs (s : State) (o : HotpOut) (d : Nat) : (s.setCode o d).inputs = s.inputs := rfl
@[simp] theorem State.setCode_resp (s : State) (o : HotpOut) (d : Nat) : (s.setCode o d).resp = s.resp := rfl

/-! ### setTotp -/

@[simp] theorem State.setTotp_cmdLatch (s : State) (o : HotpOut) (d : Nat) : (s.setTotp o d).cmdLatch = s.cmdLatch := rfl
@[simp] theorem State.setTotp_busy (s : State) (o : HotpOut) (d : Nat) : (s.setTotp o d).busy = s.busy := rfl
@[simp] theorem State.setTotp_done (s : State) (o : HotpOut) (d : Nat) : (s.setTotp o d).done = s.done := rfl
@[simp] theorem State.setTotp_win (s : State) (o : HotpOut) (d : Nat) : (s.setTotp o d).win = s.win := rfl
@[simp] theorem State.setTotp_drop (s : State) (o : HotpOut) (d : Nat) : (s.setTotp o d).drop = s.drop := rfl
@[simp] theorem State.setTotp_err (s : State) (o : HotpOut) (d : Nat) : (s.setTotp o d).err = s.err := rfl
@[simp] theorem State.setTotp_lastop (s : State) (o : HotpOut) (d : Nat) : (s.setTotp o d).lastop = s.lastop := rfl
@[simp] theorem State.setTotp_doneIe (s : State) (o : HotpOut) (d : Nat) : (s.setTotp o d).doneIe = s.doneIe := rfl
@[simp] theorem State.setTotp_winIe (s : State) (o : HotpOut) (d : Nat) : (s.setTotp o d).winIe = s.winIe := rfl
@[simp] theorem State.setTotp_dropIe (s : State) (o : HotpOut) (d : Nat) : (s.setTotp o d).dropIe = s.dropIe := rfl
@[simp] theorem State.setTotp_keylen (s : State) (o : HotpOut) (d : Nat) : (s.setTotp o d).keylen = s.keylen := rfl
@[simp] theorem State.setTotp_msglen (s : State) (o : HotpOut) (d : Nat) : (s.setTotp o d).msglen = s.msglen := rfl
@[simp] theorem State.setTotp_txtlen (s : State) (o : HotpOut) (d : Nat) : (s.setTotp o d).txtlen = s.txtlen := rfl
@[simp] theorem State.setTotp_candlen (s : State) (o : HotpOut) (d : Nat) : (s.setTotp o d).candlen = s.candlen := rfl
@[simp] theorem State.setTotp_ctr (s : State) (o : HotpOut) (d : Nat) : (s.setTotp o d).ctr = s.ctr := rfl
@[simp] theorem State.setTotp_targ (s : State) (o : HotpOut) (d : Nat) : (s.setTotp o d).targ = s.targ := rfl
@[simp] theorem State.setTotp_time (s : State) (o : HotpOut) (d : Nat) : (s.setTotp o d).time = s.time := rfl
@[simp] theorem State.setTotp_sTime (s : State) (o : HotpOut) (d : Nat) : (s.setTotp o d).sTime = s.sTime := rfl
@[simp] theorem State.setTotp_timeHiSnap (s : State) (o : HotpOut) (d : Nat) : (s.setTotp o d).timeHiSnap = s.timeHiSnap := rfl
@[simp] theorem State.setTotp_timeLoStage (s : State) (o : HotpOut) (d : Nat) : (s.setTotp o d).timeLoStage = s.timeLoStage := rfl
@[simp] theorem State.setTotp_ctrOut (s : State) (o : HotpOut) (d : Nat) : (s.setTotp o d).ctrOut = BitVec.ofNat 64 (counterFor s.sTime) := rfl
@[simp] theorem State.setTotp_rem (s : State) (o : HotpOut) (d : Nat) : (s.setTotp o d).rem = BitVec.ofNat 5 (remaining s.sTime) := rfl
@[simp] theorem State.setTotp_trunc (s : State) (o : HotpOut) (d : Nat) : (s.setTotp o d).trunc = BitVec.ofNat 31 o.p := rfl
@[simp] theorem State.setTotp_code (s : State) (o : HotpOut) (d : Nat) : (s.setTotp o d).code = BitVec.ofNat 27 o.code := rfl
@[simp] theorem State.setTotp_cdig (s : State) (o : HotpOut) (d : Nat) : (s.setTotp o d).cdig = BitVec.ofNat 4 d := rfl
@[simp] theorem State.setTotp_vmatch (s : State) (o : HotpOut) (d : Nat) : (s.setTotp o d).vmatch = s.vmatch := rfl
@[simp] theorem State.setTotp_mem (s : State) (o : HotpOut) (d : Nat) : (s.setTotp o d).mem = Memory.setBuf (Memory.setBuf s.mem .digest o.digest) .codea o.ascii := rfl
@[simp] theorem State.setTotp_inputs (s : State) (o : HotpOut) (d : Nat) : (s.setTotp o d).inputs = s.inputs := rfl
@[simp] theorem State.setTotp_resp (s : State) (o : HotpOut) (d : Nat) : (s.setTotp o d).resp = s.resp := rfl

/-! ### setVerdict -/

@[simp] theorem State.setVerdict_cmdLatch (s : State) (m : Bool) : (s.setVerdict m).cmdLatch = s.cmdLatch := rfl
@[simp] theorem State.setVerdict_busy (s : State) (m : Bool) : (s.setVerdict m).busy = s.busy := rfl
@[simp] theorem State.setVerdict_done (s : State) (m : Bool) : (s.setVerdict m).done = s.done := rfl
@[simp] theorem State.setVerdict_win (s : State) (m : Bool) : (s.setVerdict m).win = s.win := rfl
@[simp] theorem State.setVerdict_drop (s : State) (m : Bool) : (s.setVerdict m).drop = s.drop := rfl
@[simp] theorem State.setVerdict_err (s : State) (m : Bool) : (s.setVerdict m).err = s.err := rfl
@[simp] theorem State.setVerdict_lastop (s : State) (m : Bool) : (s.setVerdict m).lastop = s.lastop := rfl
@[simp] theorem State.setVerdict_doneIe (s : State) (m : Bool) : (s.setVerdict m).doneIe = s.doneIe := rfl
@[simp] theorem State.setVerdict_winIe (s : State) (m : Bool) : (s.setVerdict m).winIe = s.winIe := rfl
@[simp] theorem State.setVerdict_dropIe (s : State) (m : Bool) : (s.setVerdict m).dropIe = s.dropIe := rfl
@[simp] theorem State.setVerdict_keylen (s : State) (m : Bool) : (s.setVerdict m).keylen = s.keylen := rfl
@[simp] theorem State.setVerdict_msglen (s : State) (m : Bool) : (s.setVerdict m).msglen = s.msglen := rfl
@[simp] theorem State.setVerdict_txtlen (s : State) (m : Bool) : (s.setVerdict m).txtlen = s.txtlen := rfl
@[simp] theorem State.setVerdict_candlen (s : State) (m : Bool) : (s.setVerdict m).candlen = s.candlen := rfl
@[simp] theorem State.setVerdict_ctr (s : State) (m : Bool) : (s.setVerdict m).ctr = s.ctr := rfl
@[simp] theorem State.setVerdict_targ (s : State) (m : Bool) : (s.setVerdict m).targ = s.targ := rfl
@[simp] theorem State.setVerdict_time (s : State) (m : Bool) : (s.setVerdict m).time = s.time := rfl
@[simp] theorem State.setVerdict_sTime (s : State) (m : Bool) : (s.setVerdict m).sTime = s.sTime := rfl
@[simp] theorem State.setVerdict_timeHiSnap (s : State) (m : Bool) : (s.setVerdict m).timeHiSnap = s.timeHiSnap := rfl
@[simp] theorem State.setVerdict_timeLoStage (s : State) (m : Bool) : (s.setVerdict m).timeLoStage = s.timeLoStage := rfl
@[simp] theorem State.setVerdict_ctrOut (s : State) (m : Bool) : (s.setVerdict m).ctrOut = BitVec.ofNat 64 (counterFor s.sTime) := rfl
@[simp] theorem State.setVerdict_rem (s : State) (m : Bool) : (s.setVerdict m).rem = s.rem := rfl
@[simp] theorem State.setVerdict_trunc (s : State) (m : Bool) : (s.setVerdict m).trunc = s.trunc := rfl
@[simp] theorem State.setVerdict_code (s : State) (m : Bool) : (s.setVerdict m).code = s.code := rfl
@[simp] theorem State.setVerdict_cdig (s : State) (m : Bool) : (s.setVerdict m).cdig = s.cdig := rfl
@[simp] theorem State.setVerdict_vmatch (s : State) (m : Bool) : (s.setVerdict m).vmatch = m := rfl
@[simp] theorem State.setVerdict_mem (s : State) (m : Bool) : (s.setVerdict m).mem = s.mem := rfl
@[simp] theorem State.setVerdict_inputs (s : State) (m : Bool) : (s.setVerdict m).inputs = s.inputs := rfl
@[simp] theorem State.setVerdict_resp (s : State) (m : Bool) : (s.setVerdict m).resp = s.resp := rfl

/-! ### setText -/

@[simp] theorem State.setText_cmdLatch (s : State) (x : List Byte) : (s.setText x).cmdLatch = s.cmdLatch := rfl
@[simp] theorem State.setText_busy (s : State) (x : List Byte) : (s.setText x).busy = s.busy := rfl
@[simp] theorem State.setText_done (s : State) (x : List Byte) : (s.setText x).done = s.done := rfl
@[simp] theorem State.setText_win (s : State) (x : List Byte) : (s.setText x).win = s.win := rfl
@[simp] theorem State.setText_drop (s : State) (x : List Byte) : (s.setText x).drop = s.drop := rfl
@[simp] theorem State.setText_err (s : State) (x : List Byte) : (s.setText x).err = s.err := rfl
@[simp] theorem State.setText_lastop (s : State) (x : List Byte) : (s.setText x).lastop = s.lastop := rfl
@[simp] theorem State.setText_doneIe (s : State) (x : List Byte) : (s.setText x).doneIe = s.doneIe := rfl
@[simp] theorem State.setText_winIe (s : State) (x : List Byte) : (s.setText x).winIe = s.winIe := rfl
@[simp] theorem State.setText_dropIe (s : State) (x : List Byte) : (s.setText x).dropIe = s.dropIe := rfl
@[simp] theorem State.setText_keylen (s : State) (x : List Byte) : (s.setText x).keylen = s.keylen := rfl
@[simp] theorem State.setText_msglen (s : State) (x : List Byte) : (s.setText x).msglen = s.msglen := rfl
@[simp] theorem State.setText_txtlen (s : State) (x : List Byte) : (s.setText x).txtlen = BitVec.ofNat 8 x.length := rfl
@[simp] theorem State.setText_candlen (s : State) (x : List Byte) : (s.setText x).candlen = s.candlen := rfl
@[simp] theorem State.setText_ctr (s : State) (x : List Byte) : (s.setText x).ctr = s.ctr := rfl
@[simp] theorem State.setText_targ (s : State) (x : List Byte) : (s.setText x).targ = s.targ := rfl
@[simp] theorem State.setText_time (s : State) (x : List Byte) : (s.setText x).time = s.time := rfl
@[simp] theorem State.setText_sTime (s : State) (x : List Byte) : (s.setText x).sTime = s.sTime := rfl
@[simp] theorem State.setText_timeHiSnap (s : State) (x : List Byte) : (s.setText x).timeHiSnap = s.timeHiSnap := rfl
@[simp] theorem State.setText_timeLoStage (s : State) (x : List Byte) : (s.setText x).timeLoStage = s.timeLoStage := rfl
@[simp] theorem State.setText_ctrOut (s : State) (x : List Byte) : (s.setText x).ctrOut = s.ctrOut := rfl
@[simp] theorem State.setText_rem (s : State) (x : List Byte) : (s.setText x).rem = s.rem := rfl
@[simp] theorem State.setText_trunc (s : State) (x : List Byte) : (s.setText x).trunc = s.trunc := rfl
@[simp] theorem State.setText_code (s : State) (x : List Byte) : (s.setText x).code = s.code := rfl
@[simp] theorem State.setText_cdig (s : State) (x : List Byte) : (s.setText x).cdig = s.cdig := rfl
@[simp] theorem State.setText_vmatch (s : State) (x : List Byte) : (s.setText x).vmatch = s.vmatch := rfl
@[simp] theorem State.setText_mem (s : State) (x : List Byte) : (s.setText x).mem = Memory.setBuf s.mem .txt x := rfl
@[simp] theorem State.setText_inputs (s : State) (x : List Byte) : (s.setText x).inputs = s.inputs := rfl
@[simp] theorem State.setText_resp (s : State) (x : List Byte) : (s.setText x).resp = s.resp := rfl

/-! ### setKey -/

@[simp] theorem State.setKey_cmdLatch (s : State) (k : List Byte) : (s.setKey k).cmdLatch = s.cmdLatch := rfl
@[simp] theorem State.setKey_busy (s : State) (k : List Byte) : (s.setKey k).busy = s.busy := rfl
@[simp] theorem State.setKey_done (s : State) (k : List Byte) : (s.setKey k).done = s.done := rfl
@[simp] theorem State.setKey_win (s : State) (k : List Byte) : (s.setKey k).win = s.win := rfl
@[simp] theorem State.setKey_drop (s : State) (k : List Byte) : (s.setKey k).drop = s.drop := rfl
@[simp] theorem State.setKey_err (s : State) (k : List Byte) : (s.setKey k).err = s.err := rfl
@[simp] theorem State.setKey_lastop (s : State) (k : List Byte) : (s.setKey k).lastop = s.lastop := rfl
@[simp] theorem State.setKey_doneIe (s : State) (k : List Byte) : (s.setKey k).doneIe = s.doneIe := rfl
@[simp] theorem State.setKey_winIe (s : State) (k : List Byte) : (s.setKey k).winIe = s.winIe := rfl
@[simp] theorem State.setKey_dropIe (s : State) (k : List Byte) : (s.setKey k).dropIe = s.dropIe := rfl
@[simp] theorem State.setKey_keylen (s : State) (k : List Byte) : (s.setKey k).keylen = BitVec.ofNat 7 k.length := rfl
@[simp] theorem State.setKey_msglen (s : State) (k : List Byte) : (s.setKey k).msglen = s.msglen := rfl
@[simp] theorem State.setKey_txtlen (s : State) (k : List Byte) : (s.setKey k).txtlen = s.txtlen := rfl
@[simp] theorem State.setKey_candlen (s : State) (k : List Byte) : (s.setKey k).candlen = s.candlen := rfl
@[simp] theorem State.setKey_ctr (s : State) (k : List Byte) : (s.setKey k).ctr = s.ctr := rfl
@[simp] theorem State.setKey_targ (s : State) (k : List Byte) : (s.setKey k).targ = s.targ := rfl
@[simp] theorem State.setKey_time (s : State) (k : List Byte) : (s.setKey k).time = s.time := rfl
@[simp] theorem State.setKey_sTime (s : State) (k : List Byte) : (s.setKey k).sTime = s.sTime := rfl
@[simp] theorem State.setKey_timeHiSnap (s : State) (k : List Byte) : (s.setKey k).timeHiSnap = s.timeHiSnap := rfl
@[simp] theorem State.setKey_timeLoStage (s : State) (k : List Byte) : (s.setKey k).timeLoStage = s.timeLoStage := rfl
@[simp] theorem State.setKey_ctrOut (s : State) (k : List Byte) : (s.setKey k).ctrOut = s.ctrOut := rfl
@[simp] theorem State.setKey_rem (s : State) (k : List Byte) : (s.setKey k).rem = s.rem := rfl
@[simp] theorem State.setKey_trunc (s : State) (k : List Byte) : (s.setKey k).trunc = s.trunc := rfl
@[simp] theorem State.setKey_code (s : State) (k : List Byte) : (s.setKey k).code = s.code := rfl
@[simp] theorem State.setKey_cdig (s : State) (k : List Byte) : (s.setKey k).cdig = s.cdig := rfl
@[simp] theorem State.setKey_vmatch (s : State) (k : List Byte) : (s.setKey k).vmatch = s.vmatch := rfl
@[simp] theorem State.setKey_mem (s : State) (k : List Byte) : (s.setKey k).mem = Memory.setBuf s.mem .key k := rfl
@[simp] theorem State.setKey_inputs (s : State) (k : List Byte) : (s.setKey k).inputs = s.inputs := rfl
@[simp] theorem State.setKey_resp (s : State) (k : List Byte) : (s.setKey k).resp = s.resp := rfl

/-! ### zeroed -/

@[simp] theorem State.zeroed_cmdLatch (s : State) : (s.zeroed).cmdLatch = s.cmdLatch := rfl
@[simp] theorem State.zeroed_busy (s : State) : (s.zeroed).busy = s.busy := rfl
@[simp] theorem State.zeroed_done (s : State) : (s.zeroed).done = s.done := rfl
@[simp] theorem State.zeroed_win (s : State) : (s.zeroed).win = s.win := rfl
@[simp] theorem State.zeroed_drop (s : State) : (s.zeroed).drop = s.drop := rfl
@[simp] theorem State.zeroed_err (s : State) : (s.zeroed).err = s.err := rfl
@[simp] theorem State.zeroed_lastop (s : State) : (s.zeroed).lastop = s.lastop := rfl
@[simp] theorem State.zeroed_doneIe (s : State) : (s.zeroed).doneIe = s.doneIe := rfl
@[simp] theorem State.zeroed_winIe (s : State) : (s.zeroed).winIe = s.winIe := rfl
@[simp] theorem State.zeroed_dropIe (s : State) : (s.zeroed).dropIe = s.dropIe := rfl
@[simp] theorem State.zeroed_keylen (s : State) : (s.zeroed).keylen = 0 := rfl
@[simp] theorem State.zeroed_msglen (s : State) : (s.zeroed).msglen = 0 := rfl
@[simp] theorem State.zeroed_txtlen (s : State) : (s.zeroed).txtlen = 0 := rfl
@[simp] theorem State.zeroed_candlen (s : State) : (s.zeroed).candlen = 0 := rfl
@[simp] theorem State.zeroed_ctr (s : State) : (s.zeroed).ctr = 0 := rfl
@[simp] theorem State.zeroed_targ (s : State) : (s.zeroed).targ = 0 := rfl
@[simp] theorem State.zeroed_time (s : State) : (s.zeroed).time = s.time := rfl
@[simp] theorem State.zeroed_sTime (s : State) : (s.zeroed).sTime = s.sTime := rfl
@[simp] theorem State.zeroed_timeHiSnap (s : State) : (s.zeroed).timeHiSnap = s.timeHiSnap := rfl
@[simp] theorem State.zeroed_timeLoStage (s : State) : (s.zeroed).timeLoStage = s.timeLoStage := rfl
@[simp] theorem State.zeroed_ctrOut (s : State) : (s.zeroed).ctrOut = 0 := rfl
@[simp] theorem State.zeroed_rem (s : State) : (s.zeroed).rem = 0 := rfl
@[simp] theorem State.zeroed_trunc (s : State) : (s.zeroed).trunc = 0 := rfl
@[simp] theorem State.zeroed_code (s : State) : (s.zeroed).code = 0 := rfl
@[simp] theorem State.zeroed_cdig (s : State) : (s.zeroed).cdig = 0 := rfl
@[simp] theorem State.zeroed_vmatch (s : State) : (s.zeroed).vmatch = false := rfl
@[simp] theorem State.zeroed_mem (s : State) : (s.zeroed).mem = Memory.clearBuffers s.mem := rfl
@[simp] theorem State.zeroed_inputs (s : State) : (s.zeroed).inputs = s.inputs := rfl
@[simp] theorem State.zeroed_resp (s : State) : (s.zeroed).resp = s.resp := rfl


end Sys2Proof.Machine
end

