-- ==== Sys2Proof/Laws/Results.lean ====
section
/-! SUPPORT. What each result function answers, said once: its success case and the conditions of it (R210, R220, R258,
R262, R286, R312, R316), and what no command writes. -/

namespace Sys2Proof.Machine

/-! ### Success cases -/

theorem sha1Result_ok {s t : State} (h : sha1Result s = .ok t) :
    s.msgTooLong = false ∧ t = s.setBuf .digest (sha1 s.msgBytes) := by
  unfold sha1Result at h
  split at h
  · cases h
  · next hm => exact ⟨by simpa using hm, (Except.ok.inj h).symm⟩

theorem hmacResult_ok {s t : State} (h : hmacResult s = .ok t) :
    s.keyTooLong = false ∧ s.msgTooLong = false ∧ s.keylen.toNat ≠ 0 ∧
      t = s.setBuf .digest (hmacSha1 s.keyBytes s.msgBytes) := by
  unfold hmacResult at h
  split at h
  · cases h
  · next hm =>
    split at h
    · cases h
    · next hk =>
      rw [Bool.or_eq_true, not_or] at hm
      exact ⟨by simpa using hm.1, by simpa using hm.2, hk, (Except.ok.inj h).symm⟩

theorem hotpResult_ok {f : Nat} {s t : State} (h : hotpResult f s = .ok t) :
    ∃ d, s.keyTooLong = false ∧ s.keylen.toNat ≠ 0 ∧ digitsOf f = some d ∧
      t = s.setCode (hotpCore s.keyBytes s.ctr.toNat d) d := by
  unfold hotpResult at h
  split at h
  · cases h
  · next hm =>
    split at h
    · cases h
    · next hk =>
      split at h
      · cases h
      · next d hd => exact ⟨d, by simpa using hm, hk, hd, (Except.ok.inj h).symm⟩

theorem totpResult_ok {f : Nat} {src : KeySrc} {s t : State} (h : totpResult f src s = .ok t) :
    ∃ k d, s.sourceTooLong src = false ∧ s.keyOf src = .ok k ∧ k.length ≠ 0 ∧ digitsOf f = some d ∧
      t = s.setTotp (hotpCore k (counterFor s.sTime) d) d := by
  unfold totpResult at h
  split at h
  · cases h
  · next hm =>
    split at h
    · cases h
    · next k hk =>
      split at h
      · cases h
      · next hl =>
        split at h
        · cases h
        · next d hd => exact ⟨k, d, by simpa using hm, hk, hl, hd, (Except.ok.inj h).symm⟩

theorem verifyResult_ok {f w : Nat} {src : KeySrc} {s t : State} (h : verifyResult f src w s = .ok t) :
    ∃ k d, s.sourceTooLong src = false ∧ s.candTooLong = false ∧ s.keyOf src = .ok k ∧ k.length ≠ 0 ∧
      digitsOf f = some d ∧ t = s.setVerdict (windowMatch k d s.candBytes (counterFor s.sTime) w) := by
  unfold verifyResult at h
  split at h
  · cases h
  · next hm =>
    split at h
    · cases h
    · next k hk =>
      split at h
      · cases h
      · next hl =>
        split at h
        · cases h
        · next d hd =>
          rw [Bool.or_eq_true, not_or] at hm
          exact ⟨k, d, by simpa using hm.1, by simpa using hm.2, hk, hl, hd, (Except.ok.inj h).symm⟩

theorem b32encResult_ok {s t : State} (h : b32encResult s = .ok t) :
    s.keyTooLong = false ∧ t = s.setText (b32encode s.keyBytes) := by
  unfold b32encResult at h
  split at h
  · cases h
  · next hm => exact ⟨by simpa using hm, (Except.ok.inj h).symm⟩

theorem b32decResult_ok {s t : State} (h : b32decResult s = .ok t) :
    ∃ r, s.txtTooLong = false ∧ b32decode s.txtBytes = some r ∧ r.length ≤ Config.keyMax ∧ t = s.setKey r := by
  unfold b32decResult at h
  split at h
  · cases h
  · next hm =>
    split at h
    · cases h
    · next r hr =>
      split at h
      · cases h
      · next hl => exact ⟨r, by simpa using hm, hr, by omega, (Except.ok.inj h).symm⟩

/-- The digit counts the DIGITS field can select (R142). -/
theorem digitsOf_some {f d : Nat} (h : digitsOf f = some d) : d = 6 ∨ d = 7 ∨ d = 8 := by
  unfold digitsOf at h
  split at h
  · exact .inl (Option.some.inj h).symm
  · split at h
    · next hf => cases h; exact hf
    · cases h

/-! ### What no command writes -/

/-- A state with the fields that no command writes taken from `s`: the latched word, the flags, IE, the time registers and the
model's own fields (R65, R67, R350). -/
def State.commandFrame (s t : State) : State :=
  { t with
    cmdLatch := s.cmdLatch, busy := s.busy, done := s.done, win := s.win, drop := s.drop, err := s.err,
    lastop := s.lastop, doneIe := s.doneIe, winIe := s.winIe, dropIe := s.dropIe, time := s.time, sTime := s.sTime,
    timeHiSnap := s.timeHiSnap, timeLoStage := s.timeLoStage, inputs := s.inputs, resp := s.resp }

/-- Whatever a result function writes, these fields stay. -/
theorem resultOf_frame {i : Instr} {s t : State} (h : resultOf i s = .ok t) : t = s.commandFrame t := by
  cases i with
  | sha1 => obtain ⟨-, rfl⟩ := sha1Result_ok h; rfl
  | hmac => obtain ⟨-, -, -, rfl⟩ := hmacResult_ok h; rfl
  | hotp f => obtain ⟨d, -, -, -, rfl⟩ := hotpResult_ok h; rfl
  | totp f x src => obtain ⟨k, d, -, -, -, -, rfl⟩ := totpResult_ok h; rfl
  | verify f x src w => obtain ⟨k, d, -, -, -, -, -, rfl⟩ := verifyResult_ok h; rfl
  | b32enc => obtain ⟨-, rfl⟩ := b32encResult_ok h; rfl
  | b32dec => obtain ⟨r, -, -, -, rfl⟩ := b32decResult_ok h; rfl
  | ctrfor x => cases h; rfl
  | remsec x => cases h; rfl
  | zero => cases h; rfl
  | nop => cases h; rfl

end Sys2Proof.Machine
end

