-- ==== Sys2Proof/Laws/Sha1.lean ====
section
/-! SUPPORT. What the pieces of SHA-1 give: the blocks of a padded message (R242), the length of a schedule (R245), the
rounds taken in two parts (R246), and the length of a digest (R247). -/

namespace Sys2Proof.Machine

theorem splitBlocks_length (n : Nat) (m : List Byte) : (splitBlocks n m).length = n := by
  induction n generalizing m with
  | zero => rfl
  | succ n ih => simp [splitBlocks, ih]

/-- Block i of a message is its bytes 64i to 64i + 63. -/
theorem splitBlocks_getElem? {n i : Nat} (m : List Byte) (h : i < n) :
    (splitBlocks n m)[i]? = some ((m.drop (64 * i)).take 64) := by
  induction n generalizing m i with
  | zero => omega
  | succ n ih =>
    cases i with
    | zero => simp [splitBlocks, Config.blockSize]
    | succ i =>
      have hi : i < n := by omega
      simp only [splitBlocks, Config.blockSize, List.getElem?_cons_succ, ih (m.drop 64) hi, List.drop_drop,
        Nat.mul_succ, Nat.add_comm]

theorem extendSchedule_length (n : Nat) (ws : List Word) : (extendSchedule n ws).length = n + ws.length := by
  induction n generalizing ws with
  | zero => simp [extendSchedule]
  | succ n ih => rw [extendSchedule, ih]; simp; omega

@[simp] theorem schedule_length (blk : List Byte) : (schedule blk).length = 80 := by
  simp [schedule, extendSchedule_length]

/-- The rounds of two schedules in a row are those of the first, then those of the second from there on. -/
theorem sha1Rounds_append (ws vs : List Word) (t : Nat) (h : HashState) :
    sha1Rounds t (ws ++ vs) h = sha1Rounds (t + ws.length) vs (sha1Rounds t ws h) := by
  induction ws generalizing t h with
  | nil => rfl
  | cons w ws ih => simp only [List.cons_append, sha1Rounds, ih, List.length_cons]; congr 1; omega

@[simp] theorem bytesBE_length (n v : Nat) : (bytesBE n v).length = n := by simp [bytesBE]

/-- Byte i of the big-endian encoding (R10). -/
theorem bytesBE_getD {n i : Nat} (v : Nat) (h : i < n) :
    ((bytesBE n v).getD i 0).toNat = v / 256 ^ (n - 1 - i) % 256 := by
  simp [bytesBE, List.getD, h]

@[simp] theorem hashState_bytes_length (h : HashState) : h.bytes.length = 20 := by simp [HashState.bytes]

end Sys2Proof.Machine
end

