-- ==== Sys2Proof/Tests/Slice0.lean ====
section
/-! SUPPORT. The model's own tests: ill-formed commands, words written out from the spec's bit layout, one-step vectors from
spec/95_test_vectors.md, and a witness for the hypotheses of each statement. -/

namespace Sys2Proof.Tests

open Sys2Proof.Machine

/-! ### Helpers -/

/-- The view of the next state of an outcome. -/
def after {α : Type} (o : Outcome) (f : State → α) : Option α :=
  match o with
  | .next t => some (f t)
  | .fault r => nomatch r
  | .refused _ => none

/-- The ASCII bytes of a string (R10). -/
def ascii (x : String) : List Byte := x.toList.map fun c => BitVec.ofNat 8 c.toNat

/-- The source's key, "12345678901234567890" (kincode §8.3). -/
def k20 : List Byte := ascii "12345678901234567890"

/-- Reset with a key. -/
def withKey (k : List Byte) : State :=
  { State.reset with keylen := BitVec.ofNat 7 k.length, mem := Memory.setBuf [] .key k }

/-- Reset with a text. -/
def withTxt (x : List Byte) : State :=
  { State.reset with txtlen := BitVec.ofNat 8 x.length, mem := Memory.setBuf [] .txt x }

/-- Reset with a message. -/
def withMsg (m : List Byte) : State :=
  { State.reset with msglen := BitVec.ofNat 7 m.length, mem := Memory.setBuf [] .msg m }

/-- A state with a candidate. -/
def withCand (s : State) (c : List Byte) : State :=
  { s with candlen := BitVec.ofNat 4 c.length, mem := Memory.setBuf s.mem .cand c }

/-- Reset with a command word in flight. -/
def inFlight (w : Word) : State := { State.reset with cmdLatch := w, busy := true }

/-- The error code a command ends with. -/
def errAfter (i : Instr) (s : State) : Option ErrCode := after (exec i s) State.err

/-! ### Ill-formed commands (R141: 4-bit fields) -/

theorem test_wellFormed_hotp_digits : Instr.wellFormed (.hotp 15) = true ∧ Instr.wellFormed (.hotp 16) = false := by
  decide

theorem test_wellFormed_totp_digits : Instr.wellFormed (.totp 16 .now .key) = false := by decide

theorem test_wellFormed_verify_digits : Instr.wellFormed (.verify 16 .now .key 1) = false := by decide

theorem test_wellFormed_verify_window :
    Instr.wellFormed (.verify 6 .now .key 15) = true ∧ Instr.wellFormed (.verify 6 .now .key 16) = false := by
  decide

/-! ### Words, bit by bit: reserved(18) WINDOW(4) TXTKEY TSRC DIGITS(4) OP(4) (R141, R146) -/

theorem test_decode_sha1 : decode 0b000000000000000000_0000_0_0_0000_0001 = .ok .sha1 := by decide

theorem test_decode_hmac : decode 0b000000000000000000_0000_0_0_0000_0010 = .ok .hmac := by decide

theorem test_decode_hotp : decode 0b000000000000000000_0000_0_0_1000_0011 = .ok (.hotp 8) := by decide

theorem test_decode_totp : decode 0b000000000000000000_0000_1_0_0111_0100 = .ok (.totp 7 .now .txt) := by decide

theorem test_decode_verify :
    decode 0b000000000000000000_1010_0_1_0110_0101 = .ok (.verify 6 .arg .key 10) := by decide

theorem test_decode_b32enc : decode 0b000000000000000000_0000_0_0_0000_0110 = .ok .b32enc := by decide

theorem test_decode_b32dec : decode 0b000000000000000000_0000_0_0_0000_0111 = .ok .b32dec := by decide

theorem test_decode_ctrfor : decode 0b000000000000000000_0000_0_1_0000_1000 = .ok (.ctrfor .arg) := by decide

theorem test_decode_remsec : decode 0b000000000000000000_0000_0_1_0000_1001 = .ok (.remsec .arg) := by decide

theorem test_decode_zero : decode 0b000000000000000000_0000_0_0_0000_1010 = .ok .zero := by decide

theorem test_decode_nop : decode 0b000000000000000000_0000_0_0_0000_1111 = .ok .nop := by decide

/-- Words of 95_test_vectors.md that are illegal: reserved OPs, unused fields, reserved bits. -/
theorem test_decode_illegal :
    decode 0x00000000 = .error (.reservedOp 0) ∧ decode 0x0000000B = .error (.reservedOp 11) ∧
    decode 0x0000001F = .error (.strayBits 15) ∧ decode 0x00000011 = .error (.strayBits 1) ∧
    decode 0x00000103 = .error (.strayBits 3) ∧ decode 0x80000003 = .error (.strayBits 3) ∧
    decode 0x00001003 = .error (.strayBits 3) ∧ decode 0x00000504 = .error (.strayBits 4) := by decide

/-- The command words of 95_test_vectors.md section 2. -/
theorem test_encode_words :
    encode (.totp 8 .arg .key) = 0x00000184 ∧ encode (.totp 0 .arg .txt) = 0x00000304 ∧
    encode (.verify 0 .arg .key 1) = 0x00000505 ∧ encode (.verify 0 .arg .key 2) = 0x00000905 ∧
    encode (.verify 0 .arg .txt 1) = 0x00000705 ∧ encode (.hotp 9) = 0x00000093 ∧
    encode (.ctrfor .arg) = 0x00000108 ∧ encode (.remsec .arg) = 0x00000109 := by decide

/-- An invalid DIGITS value decodes (R147); the field is 4 bits of the table's numbering. -/
theorem test_decodeTableWord :
    decodeTableWord 32 0x00000093 = some (.hotp 9) ∧ decodeTableWord 32 0x0000000A = some .zero ∧
    decodeTableWord 32 0x0000001A = none := by decide

/-! ### One-step vectors of 95_test_vectors.md section 2 -/

/-- R258: MSG = "abc". -/
theorem test_sha1_abc :
    after (exec .sha1 (withMsg (ascii "abc"))) (fun t => t.bytes .digest 20) =
      some [0xa9, 0x99, 0x3e, 0x36, 0x47, 0x06, 0x81, 0x6a, 0xba, 0x3e, 0x25, 0x71, 0x78, 0x50, 0xc2, 0x6c, 0x9c, 0xd0,
        0xd8, 0x9d] := by decide +kernel

/-- Section 2.2: "a" × 56, the shortest two-block message. -/
theorem test_sha1_two_blocks :
    after (exec .sha1 (withMsg (List.replicate 56 0x61))) (fun t => t.regValue (.buf .digest 0)) =
      some 0x0F33DBC2 := by decide +kernel

/-- R262: RFC 2202 test case 1. -/
theorem test_hmac_hi_there :
    after (exec .hmac { withKey (List.replicate 20 0x0b) with
        msglen := 8, mem := Memory.setBuf (withKey (List.replicate 20 0x0b)).mem .msg (ascii "Hi There") })
      (fun t => t.bytes .digest 20) =
      some [0xb6, 0x17, 0x31, 0x86, 0x55, 0x05, 0x72, 0x64, 0xe2, 0x8b, 0xc0, 0xb6, 0xfb, 0x37, 0x8c, 0x8e, 0xf1, 0x46,
        0xbe, 0x00] := by decide +kernel

/-- Section 2.3: "k" with the empty message. -/
theorem test_hmac_empty_message :
    after (exec .hmac (withKey (ascii "k"))) (fun t => t.regValue (.buf .digest 0)) = some 0x18A2843A := by
  decide +kernel

/-- R286: counter 1, d = 6. -/
theorem test_hotp_counter_1 :
    after (exec (.hotp 0) { withKey k20 with ctr := 1, cmdLatch := 0x3 })
      (fun t => [t.regValue .trunc, t.regValue .code, t.regValue (.buf .codea 0), t.regValue (.buf .codea 1),
        t.regValue .result, t.regValue (.buf .digest 0), t.statusWord]) =
      some [0x41397EEA, 0x0004616A, 0x30373832, 0x00003238, 0x00000006, 0x198AA475, 0x00003002] := by
  decide +kernel

/-- Section 2.4: counter 2^64 - 1 has offset 10 and a code with a leading zero. -/
theorem test_hotp_last_counter :
    after (exec (.hotp 6) { withKey k20 with ctr := 0xFFFFFFFFFFFFFFFF })
      (fun t => (t.regValue .trunc, t.bytes .codea 8)) =
      some (0x6320CEB3, [0x30, 0x39, 0x34, 0x34, 0x35, 0x31, 0, 0]) := by decide +kernel

/-- R312: T = 59, d = 8. -/
theorem test_totp_59 :
    after (exec (.totp 8 .arg .key) { withKey k20 with sTime := 59 })
      (fun t => (t.ctrOut, t.rem, t.regValue .code, t.bytes .codea 8)) =
      some (1, 1, 0x059EB4EA, ascii "94287082") := by decide +kernel

/-- Section 2.5: a text key, T = 59, KEY and KEYLEN left alone. -/
theorem test_totp_text_key :
    after (exec (.totp 0 .arg .txt) { withTxt (ascii "JBSWY3DPEHPK3PXP") with sTime := 59 })
      (fun t => (t.code.toNat, t.keylen, t.byte .key 0)) = some (996554, 0, 0) := by decide +kernel

/-- Section 2.6: counter 3 matches with w = 2 (counters 0 to 3, -1 skipped). -/
theorem test_verify_window_2 :
    after (exec (.verify 0 .arg .key 2) { withCand (withKey k20) (ascii "969429") with sTime := 59 })
      (fun t => (t.vmatch, t.ctrOut, t.cdig)) = some (true, 1, 0) := by decide +kernel

/-- Section 2.6: at T = 0 the code of counter 2^64 - 1 does not match, for counters below 0 are skipped. -/
theorem test_verify_no_wrap :
    after (exec (.verify 0 .arg .key 1) (withCand (withKey k20) (ascii "094451")))
      (fun t => (t.vmatch, t.err)) = some (false, .ok) := by decide +kernel

/-- R210: "foobar". -/
theorem test_b32enc_foobar :
    after (exec .b32enc (withKey (ascii "foobar"))) (fun t => (t.txtBytes, t.txtlen, t.regValue (.buf .txt 0))) =
      some (ascii "MZXW6YTBOI======", 16, 0x57585A4D) := by decide +kernel

/-- R211: 64 bytes give 104 characters, the last one "=". -/
theorem test_b32enc_64 :
    after (exec .b32enc (withKey (List.replicate 64 0xFF))) (fun t => (t.txtlen, t.byte .txt 102, t.byte .txt 103)) =
      some (104, 0x59, 0x3D) := by decide +kernel

/-- R221: lower case is accepted. -/
theorem test_b32dec_lower :
    after (exec .b32dec (withTxt (ascii "mzxw6ytboi======"))) (fun t => (t.keyBytes, t.keylen)) =
      some (ascii "foobar", 6) := by decide +kernel

/-- R221: 103 characters give 64 bytes, 104 overflow; a space, one "=" for six, and "12345" are invalid. -/
theorem test_b32dec_errors :
    errAfter .b32dec (withTxt (List.replicate 103 0x41)) = some .ok ∧
    errAfter .b32dec (withTxt (List.replicate 104 0x41)) = some .keyOverflow ∧
    errAfter .b32dec (withTxt (ascii "MZXW 6YTB")) = some .invalidEncoding ∧
    errAfter .b32dec (withTxt (ascii "MZXW6YTBOI=")) = some .invalidEncoding ∧
    errAfter .b32dec (withTxt (ascii "12345")) = some .invalidEncoding := by decide +kernel

/-- R322, R323: the example, and the last time. -/
theorem test_ctrfor :
    after (exec (.ctrfor .arg) { State.reset with sTime := 1111111109 }) State.ctrOut = some 0x023523EC ∧
    after (exec (.ctrfor .arg) { State.reset with sTime := 0xFFFFFFFFFFFFFFFF }) State.ctrOut =
      some 0x0888888888888888 := by decide

/-- R326: T = 0 gives 30, T = 59 gives 1, T = 2^64 - 1 gives 15. -/
theorem test_remsec :
    after (exec (.remsec .arg) State.reset) State.rem = some 30 ∧
    after (exec (.remsec .arg) { State.reset with sTime := 59 }) State.rem = some 1 ∧
    after (exec (.remsec .arg) { State.reset with sTime := 0xFFFFFFFFFFFFFFFF }) State.rem = some 15 := by decide

/-- R350: STATUS is 0xA006 after ZERO with WIN = 1, and the key is gone. -/
theorem test_zero :
    after (exec .zero { withKey k20 with cmdLatch := 0xA, win := true, ctr := 7 })
      (fun t => (t.statusWord, t.keylen, t.ctr, t.mem)) = some (0xA006, 0, 0, []) := by decide +kernel

/-- R354: only STATUS changes, and an enabled DONE raises irq. -/
theorem test_nop :
    after (exec .nop { State.reset with cmdLatch := 0xF, doneIe := true }) (fun t => (t.statusWord, t.irq)) =
      some (0xF002, true) := by decide

/-- R403 and sections 2.3 to 2.6: which error is reported when several apply. -/
theorem test_error_order :
    errAfter (.hotp 9) State.reset = some .invalidSecretLength ∧
    errAfter (.hotp 9) { State.reset with keylen := 65 } = some .invalidLength ∧
    errAfter .hmac { State.reset with msglen := 65 } = some .invalidLength ∧
    errAfter (.totp 9 .arg .txt) (withTxt (ascii "12345")) = some .invalidSecret ∧
    errAfter (.totp 0 .arg .txt) State.reset = some .invalidSecretLength ∧
    errAfter (.totp 0 .arg .txt) (withTxt (List.replicate 104 0x41)) = some .invalidSecret ∧
    errAfter (.verify 9 .arg .key 1) { withKey k20 with candlen := 9 } = some .invalidLength ∧
    errAfter (.verify 9 .arg .key 1) (withKey k20) = some .invalidDigits := by decide +kernel

/-! ### The bus, the time base and steps (section 2.8) -/

theorem test_accept : (State.reset.perform (.write 32 0x008 0x0000000B)).statusWord = 0x00000001 ∧
    (State.reset.perform (.write 32 0x008 0x0000000B)).regValue .cmd = 0x0000000B := by decide

theorem test_length_masks :
    (State.reset.perform (.write 32 0x014 0xFFFFFFFF)).regValue .keylen = 0x7F ∧
    (State.reset.perform (.write 32 0x01C 0x1FF)).regValue .txtlen = 0xFF ∧
    (State.reset.perform (.write 32 0x03C 0xFF)).regValue .candlen = 0xF ∧
    (State.reset.perform (.write 32 0x010 0xFFFFFFFF)).regValue .ie = 0xE := by decide

theorem test_reset_reads :
    (State.reset.perform (.read 32 0x000)).resp = okayRead 0x4B430007 ∧
    (State.reset.perform (.read 32 0x004)).resp = okayRead 0x1E804040 ∧
    (State.reset.perform (.read 32 0x038)).resp = okayRead 0x1E ∧
    (State.reset.perform (.read 16 0x000)).resp = some { status := .error, data := some 0 } ∧
    (State.reset.perform (.read 32 0x002)).resp = some { status := .error, data := some 0 } := by decide

theorem test_dropped_write :
    ((inFlight 0x4).perform (.write 32 0x020 5)).statusWord = 0x00000009 ∧
    ((inFlight 0x4).perform (.write 32 0x020 5)).ctr = 0 ∧
    ((inFlight 0x4).perform (.write 32 0x034 0)).drop = false := by decide

theorem test_tick_window :
    ({ State.reset with time := 89, winIe := true }.perform .tick).irq = true ∧
    ({ State.reset with time := 0xFFFFFFFFFFFFFFFF }.perform .tick).win = true ∧
    ({ State.reset with time := 0xFFFFFFFFFFFFFFFE }.perform .tick).win = false := by decide

/-- Words that are no command complete with ERR = 1 (section 2.7): 0x1F, 0x0B and 0. -/
theorem test_step_illegal :
    after (step (State.reset.withFetchWord 32 0x1F)) State.statusWord = some 0x0000F102 ∧
    after (step (State.reset.withFetchWord 32 0xB)) State.statusWord = some 0x0000B102 ∧
    after (step (State.reset.withFetchWord 32 0x0)) State.statusWord = some 0x00000102 := by decide

theorem test_step_runs_word :
    after (step (State.reset.withFetchWord 32 0xF)) State.statusWord = some 0x0000F002 ∧
    after (step (State.reset.withFetchWord 32 0x93)) State.statusWord = some 0x00003602 := by decide

/-- R157: "wrbuf" pads the last word with zeros, and "setkey" writes the length. -/
theorem test_setkey_expansion :
    (Stmt.setkey (ascii "12345")).expand =
      some [.wr (.buf .key 0) 0x34333231, .wr (.buf .key 1) 0x00000035, .wr .keylen 5] := by decide

/-- R156: the encodings of program P3's VERIFY statements; `d=9` is refused. -/
theorem test_assembler_words :
    (AsmOp.verify none (some 1) (some .arg) (some .txt)).accesses = some [.wr .cmd 0x00000705] ∧
    (AsmOp.verify none (some 0) (some .arg) (some .txt)).accesses = some [.wr .cmd 0x00000305] ∧
    (AsmOp.hotp (some 9)).accesses = none ∧
    programEvents 1 [.run .zero] =
      some [.write 32 0x008 0xA, .read 32 0x00C, .complete, .read 32 0x00C] := by decide

/-! ### Witnesses of the hypotheses of each statement -/

theorem witness_DecodeInvertsEncode : Instr.wellFormed (.verify 15 .arg .txt 15) = true := by decide

theorem witness_EncodeInvertsDecode : decode 0x00003FF5 = .ok (.verify 15 .arg .txt 15) := by decide

theorem witness_rowDecodes :
    cmdOp 0xFFFFFFF1 = 0x1 ∧ cmdOp 0x2 = 0x2 ∧ cmdOp 0xF3 = 0x3 ∧ cmdOp 0x3F4 = 0x4 ∧ cmdOp 0x3FF5 = 0x5 ∧
    cmdOp 0x6 = 0x6 ∧ cmdOp 0x7 = 0x7 ∧ cmdOp 0x108 = 0x8 ∧ cmdOp 0x109 = 0x9 ∧ cmdOp 0xA = 0xA ∧
    cmdOp 0x1F = 0xF := by decide

theorem witness_IllegalCommandCompletes :
    cmdOp 0x0 = 0x0 ∧ cmdOp 0xB = 0xB ∧ cmdOp 0xC = 0xC ∧ cmdOp 0xD = 0xD ∧ cmdOp 0xFFFFFFFE = 0xE ∧
    legal 0x1F = false ∧ State.reset.busy = false := by decide

theorem witness_CmdWriteAcceptsCommand :
    State.reset.busy = false ∧ (inFlight 0xF).busy = true ∧
    after (exec (.hotp 0) State.reset) State.err = some .invalidSecretLength := by decide

theorem witness_CompletionRecordsOutcome : after (exec (.hotp 0) State.reset) (fun t => t.err ≠ .ok) = some True := by
  simp [after, exec, execHotp, hotpResult, State.reset, State.keyTooLong, State.commit, State.finish, Config.keyMax]

theorem witness_StepRunsDecodedCommand :
    (inFlight 0xF).busy = true ∧ decode (inFlight 0xF).cmdLatch = .ok .nop ∧ (inFlight 0xF).inputs = [] ∧
    ({ inFlight 0xF with inputs := [.complete, .tick] }).inputs = .complete :: [.tick] ∧
    decodeTableWord 32 0xF = some .nop := by decide

theorem witness_StepTakesOldestEvent :
    ({ State.reset with inputs := [.tick, .reset] }).inputs = .tick :: [.reset] ∧ Event.tick ≠ .complete ∧
    ({ State.reset with inputs := [.complete] }).inputs = .complete :: [] ∧ State.reset.inputs = [] ∧
    State.reset.busy = false := by decide

theorem witness_Sha1Command :
    (64 < ({ State.reset with msglen := 65 }).msglen.toNat ∧
      errAfter .sha1 { State.reset with msglen := 65 } = some .invalidLength) ∧
    ({ State.reset with msglen := 64 }).msglen.toNat ≤ 64 ∧
    errAfter .sha1 { State.reset with msglen := 64 } = some .ok := by decide +kernel

theorem witness_HmacCommand :
    errAfter .hmac { State.reset with keylen := 65 } = some .invalidLength ∧
    errAfter .hmac { State.reset with keylen := 1, msglen := 65 } = some .invalidLength ∧
    errAfter .hmac { State.reset with keylen := 0, msglen := 64 } = some .invalidSecretLength ∧
    errAfter .hmac { State.reset with keylen := 1, msglen := 0 } = some .ok ∧
    errAfter .hmac { State.reset with keylen := 64, msglen := 64 } = some .ok ∧
    1 ≤ ({ State.reset with keylen := 64, msglen := 64 }).keylen.toNat ∧
    ({ State.reset with keylen := 64, msglen := 64 }).keylen.toNat ≤ 64 := by decide +kernel

theorem witness_selectsDigits : selectsDigits 0 6 ∧ selectsDigits 6 6 ∧ selectsDigits 7 7 ∧ selectsDigits 8 8 := by
  simp [selectsDigits]

theorem witness_invalidDigits : invalidDigits 1 ∧ invalidDigits 5 ∧ invalidDigits 9 ∧ invalidDigits 15 := by
  simp [invalidDigits]

theorem witness_HotpCommand :
    errAfter (.hotp 15) { State.reset with keylen := 65 } = some .invalidLength ∧
    errAfter (.hotp 15) { State.reset with keylen := 0 } = some .invalidSecretLength ∧
    errAfter (.hotp 5) { State.reset with keylen := 1 } = some .invalidDigits ∧
    errAfter (.hotp 9) { State.reset with keylen := 64 } = some .invalidDigits ∧
    errAfter (.hotp 0) { State.reset with keylen := 1 } = some .ok ∧
    errAfter (.hotp 8) { State.reset with keylen := 64 } = some .ok := by decide +kernel

/-- Each clause about a key source, for both sources, at the edge of its range. -/
theorem witness_sourceLengthInvalid :
    sourceLengthInvalid { State.reset with keylen := 65 } .key ∧
    sourceLengthInvalid { State.reset with txtlen := 129 } .txt := by
  constructor <;> simp only [sourceLengthInvalid] <;> decide

theorem witness_sourceUndecodable : sourceUndecodable (withTxt (ascii "12345")) .txt := by
  refine ⟨rfl, by decide, fun k h => ?_⟩
  have : b32decode ((withTxt (ascii "12345")).bytes .txt (withTxt (ascii "12345")).txtlen.toNat) = none := by
    decide +kernel
  rw [this] at h
  cases h

/-- A text that decodes to 65 bytes, one more than a key may have. -/
theorem witness_sourceUndecodable_long : sourceUndecodable (withTxt (List.replicate 104 0x41)) .txt := by
  refine ⟨rfl, by decide, fun k h => ?_⟩
  have : b32decode ((withTxt (List.replicate 104 0x41)).bytes .txt (withTxt (List.replicate 104 0x41)).txtlen.toNat) =
      some (List.replicate 65 0) := by decide +kernel
  rw [this] at h
  cases h
  decide

theorem witness_sourceGives_empty : sourceGives State.reset .key [] ∧ sourceGives State.reset .txt [] := by
  refine ⟨⟨by decide, rfl⟩, by decide, by decide, by decide⟩

theorem witness_sourceGives_key : sourceGives (withKey (ascii "k")) .key (ascii "k") ∧ ascii "k" ≠ [] := by
  refine ⟨⟨by decide, by decide⟩, by decide⟩

theorem witness_sourceGives_txt : sourceGives (withTxt (ascii "MZ")) .txt (ascii "f") ∧ ascii "f" ≠ [] := by
  refine ⟨⟨by decide, by decide +kernel, by decide⟩, by decide⟩

theorem witness_TotpCommand :
    errAfter (.totp 0 .now .key) { State.reset with keylen := 65 } = some .invalidLength ∧
    errAfter (.totp 0 .now .txt) { State.reset with txtlen := 129 } = some .invalidLength ∧
    errAfter (.totp 15 .now .key) (withKey (ascii "k")) = some .invalidDigits ∧
    errAfter (.totp 0 .now .key) (withKey (ascii "k")) = some .ok ∧
    errAfter (.totp 8 .now .txt) (withTxt (ascii "MZ")) = some .ok := by decide +kernel

theorem witness_VerifyCommand :
    (withCand (withKey (ascii "k")) (ascii "12345678")).candlen.toNat ≤ 8 ∧
    errAfter (.verify 0 .now .key 0) { withKey (ascii "k") with candlen := 9 } = some .invalidLength ∧
    errAfter (.verify 0 .now .txt 0) (withTxt (ascii "12345")) = some .invalidSecret ∧
    errAfter (.verify 0 .now .txt 0) State.reset = some .invalidSecretLength ∧
    errAfter (.verify 15 .now .key 0) (withKey (ascii "k")) = some .invalidDigits ∧
    errAfter (.verify 8 .now .key 1) (withCand (withKey (ascii "k")) (ascii "12345678")) = some .ok := by
  decide +kernel

theorem witness_B32encCommand :
    errAfter .b32enc { State.reset with keylen := 65 } = some .invalidLength ∧
    64 < ({ State.reset with keylen := 65 }).keylen.toNat ∧
    errAfter .b32enc { State.reset with keylen := 64 } = some .ok ∧
    ({ State.reset with keylen := 64 }).keylen.toNat ≤ 64 := by decide +kernel

theorem witness_B32decCommand :
    128 < ({ State.reset with txtlen := 129 }).txtlen.toNat ∧
    errAfter .b32dec { State.reset with txtlen := 129 } = some .invalidLength ∧
    b32decode ((withTxt (ascii "MZX")).bytes .txt (withTxt (ascii "MZX")).txtlen.toNat) = none ∧
    b32decode ((withTxt (List.replicate 104 0x41)).bytes .txt 104) = some (List.replicate 65 0) ∧
    b32decode ((withTxt (List.replicate 103 0x41)).bytes .txt 103) = some (List.replicate 64 0) := by decide +kernel

theorem witness_NopCommand : cmdOp (inFlight 0xF).cmdLatch = 0xF := by decide

theorem witness_Inv : State.reset.Inv ∧ (withKey k20).Inv := by
  constructor <;> decide +kernel

/-- A state that meets the invariant with a code computed, from a step. -/
theorem witness_StepKeepsInvariant :
    after (step { withKey k20 with busy := true, cmdLatch := 0x3, ctr := 1 }) (fun t => decide t.Inv) = some true := by
  decide +kernel

theorem witness_HmacInnerLengths :
    1 ≤ (List.replicate 1 (0 : Byte)).length ∧ (List.replicate 64 (0 : Byte)).length ≤ 64 ∧
    (List.replicate 55 (0 : Byte)).length ≤ 55 ∧ 56 ≤ (List.replicate 56 (0 : Byte)).length ∧
    (List.replicate 64 (0 : Byte)).length ≤ 64 ∧ (List.replicate 8 (0 : Byte)).length = 8 := by decide

/-- The digest of counter 1, offset 11 (R286), and one whose offset is 15. -/
theorem witness_DynamicTruncation :
    (List.replicate 20 (0xFF : Byte)).length = 20 ∧ truncOffset (List.replicate 20 0xFF) = 15 ∧
    truncValue (List.replicate 20 0xFF) = 2 ^ 31 - 1 := by decide

theorem witness_Base32TrailingBitsIgnored :
    b32Value 0x5A = some 25 ∧ b32Value 0x59 = some 24 ∧ 25 / 2 ^ (5 * (1 + 1) % 8) = 24 / 2 ^ (5 * (1 + 1) % 8) := by
  decide

theorem witness_KeySurvivesEncodeDecode : (withKey (List.replicate 64 0xFF)).keylen.toNat ≤ 64 := by decide

theorem witness_TextKeyActsAsDecodedKey :
    errAfter .b32dec (withTxt (ascii "MZ")) = some .ok ∧
    errAfter .b32dec (withTxt (ascii "MZX")) = some .invalidEncoding ∧
    errAfter .b32dec (withTxt (List.replicate 104 0x41)) = some .keyOverflow := by decide +kernel

theorem witness_CounterAndCountdown :
    ((29 : DWord).toNat ≤ (30 : DWord).toNat) ∧ ({ State.reset with time := 29 }).time.toNat ≠ 2 ^ 64 - 1 := by decide

theorem witness_UnsupportedAccesses : (8 ≠ 32 ∨ (0x000 : BitVec 12).toNat % 4 ≠ 0) ∧ (0x003 : BitVec 12).toNat % 4 ≠ 0 := by
  decide

theorem witness_ReadsReturnAndLatch : (0xFFC : BitVec 12).toNat % 4 = 0 ∧ (0xFFC : BitVec 12) ≠ 0x030 := by decide

theorem witness_lockedOffset :
    lockedOffset 0x008 ∧ lockedOffset 0x014 ∧ lockedOffset 0x02C ∧ lockedOffset 0x03C ∧ lockedOffset 0x044 ∧
    lockedOffset 0x100 ∧ lockedOffset 0x1FC ∧ ¬lockedOffset 0x010 ∧ ¬lockedOffset 0x030 ∧ ¬lockedOffset 0x038 ∧
    ¬lockedOffset 0x048 ∧ ¬lockedOffset 0x200 := by simp [lockedOffset]

theorem witness_reservedOffset :
    reservedOffset 0x068 ∧ reservedOffset 0x07C ∧ reservedOffset 0x094 ∧ reservedOffset 0x0FC ∧ reservedOffset 0x200 ∧
    reservedOffset 0xFFC ∧ ¬reservedOffset 0x064 ∧ ¬reservedOffset 0x080 ∧ ¬reservedOffset 0x090 ∧
    ¬reservedOffset 0x100 := by simp [reservedOffset]

/-- R40, R108, by running through the window: an aligned offset is reserved exactly where the map says, and locked exactly
where CMD or an operand register stands. -/
theorem test_map_ranges :
    ∀ j : Fin 1024,
      (regAt (4 * j) = .reserved ↔
        (0x068 ≤ 4 * j.val ∧ 4 * j.val ≤ 0x07C) ∨ (0x094 ≤ 4 * j.val ∧ 4 * j.val ≤ 0x0FC) ∨ 0x200 ≤ 4 * j.val) ∧
      ((regAt (4 * j)).isLocked = true ↔
        4 * j.val = 0x008 ∨ (0x014 ≤ 4 * j.val ∧ 4 * j.val ≤ 0x02C) ∨ (0x03C ≤ 4 * j.val ∧ 4 * j.val ≤ 0x044) ∨
          (0x100 ≤ 4 * j.val ∧ 4 * j.val ≤ 0x1FC)) := by decide +kernel

theorem witness_LockedWritesDropped :
    (inFlight 0xF).busy = true ∧ ((inFlight 0xF).perform (.write 32 0x008 1)).cmdLatch = 0xF ∧
    State.reset.busy = false ∧
    (({ State.reset with drop := true }).perform (.write 32 0x008 1)).drop = true := by decide

theorem witness_OperandWriteReadsBack :
    State.reset.busy = false ∧ (0x1FC : BitVec 12) ≠ 0x008 ∧ (0x014 : BitVec 12).toNat % 4 = 0 ∧
    (0x014 : BitVec 12) ≠ 0x1FC := by decide

/-- R49: the two halves of CTR, each written with the other kept. -/
theorem test_ctr_halves :
    ((State.reset.perform (.write 32 0x020 5)).perform (.write 32 0x024 7)).ctr = 0x0000000700000005 := by decide

/-- R10: the most significant byte comes first. -/
theorem test_bytesBE : bytesBE 8 0x0102030405060708 = [1, 2, 3, 4, 5, 6, 7, 8] := by decide

theorem witness_BufferByteLanes :
    3 < bufSize .cand ∧ bufIsOperand .txt = true ∧ 4 * 31 < bufSize .txt ∧ State.reset.busy = false ∧
    Memory.read (State.reset.perform (.write 32 0x1FC 0x44332211)).mem 0x1FF = 0x44 := by decide

theorem witness_eventNotReset : Event.tick ≠ .reset ∧ Event.write 32 0x020 5 ≠ .reset ∧ Event.complete ≠ .reset := by
  decide

theorem witness_TickCommutesWithCompletion :
    after (exec (.ctrfor .now) { State.reset with time := 29, sTime := 29 }) State.ctrOut = some 0 := by decide

theorem witness_CountdownFollowsTicks :
    ({ State.reset with time := 29 }).time.toNat ≠ 2 ^ 64 - 1 ∧
    (({ State.reset with time := 29 }).regValue .nowRem).toNat = 1 ∧
    (({ State.reset with time := 28 }).regValue .nowRem).toNat ≠ 1 := by decide

theorem witness_SameCycleOrder :
    (inFlight 0xF).busy = true ∧ (inFlight 0xF).inputs = [] ∧ State.reset.busy = false ∧
    (({ State.reset with time := 29 }).time + 1).toNat % 30 = 0 ∧
    after (completion ((inFlight 0xF).cycle (.write 32 0x00C 0x2) true)) State.done = some true ∧
    after (completion ((inFlight 0xF).cycle (.write 32 0x1FC 0x2) false)) State.drop = some true := by decide

theorem witness_InterruptLevel :
    ({ State.reset with done := true }).statusWord &&& 0x2 &&& 0xE ≠ 0 ∧
    after (exec .nop { State.reset with doneIe := true }) State.irq = some true := by decide

theorem witness_RunningCommandIsolated :
    (inFlight 0x8).busy = true ∧ after (exec (.ctrfor .now) (inFlight 0x8)) State.err = some .ok ∧
    after (exec (.ctrfor .now) ((inFlight 0x8).perform (.write 32 0x034 9))) State.err = some .ok := by decide

/-- Two different states with the same operands and S_TIME, from which a command completes. -/
theorem witness_ResultDependsOnOperands :
    sameOperands State.reset { State.reset with time := 9, rem := 3 } ∧
    ({ State.reset with time := 9, rem := 3 }).sTime = State.reset.sTime ∧
    after (exec (.remsec .now) State.reset) State.rem = some 30 ∧
    after (exec (.remsec .now) { State.reset with time := 9, rem := 3 }) State.rem = some 30 := by
  refine ⟨⟨rfl, rfl, rfl, rfl, rfl, rfl, fun b _ i _ => rfl⟩, rfl, by decide, by decide⟩

theorem witness_CarefulEventsNeverDrop :
    carefulEvent State.reset (.write 32 0x008 1) = true ∧ carefulEvent (inFlight 1) (.write 32 0x008 1) = false ∧
    carefulEvent (inFlight 1) (.read 32 0x00C) = true ∧ carefulEvent { State.reset with drop := true } .tick = true ∧
    (({ State.reset with drop := true }).perform .tick).drop = true := by decide

/-- An idle block stays idle at a 16-bit write at CMD, a write elsewhere and a reset; at a write of CMD it does not. -/
theorem witness_ResetValues :
    State.reset.busy = false ∧ (State.reset.perform (.write 16 0x008 1)).busy = false ∧
    (State.reset.perform (.write 32 0x014 1)).busy = false ∧ (State.reset.perform .reset).busy = false ∧
    (State.reset.perform (.write 32 0x008 1)).busy = true ∧
    (∀ v, Event.write 16 0x008 1 ≠ .write 32 0x008 v) ∧
    ({ State.reset with inputs := [.tick] }).inputs.head? ≠ some .reset ∧
    after (step { State.reset with inputs := [.tick] }) State.busy = some false := by
  refine ⟨by decide, by decide, by decide, by decide, by decide, fun v h => ?_, by decide, by decide⟩
  cases h

/-- R244: the rounds where the constants change. -/
theorem witness_Sha1DigestBytes :
    roundK 19 = 0x5A827999 ∧ roundK 20 = 0x6ED9EBA1 ∧ roundK 39 = 0x6ED9EBA1 ∧ roundK 40 = 0x8F1BBCDC ∧
    roundK 59 = 0x8F1BBCDC ∧ roundK 60 = 0xCA62C1D6 ∧ roundK 79 = 0xCA62C1D6 := by decide

/-- R203: "f" is 01100110, so its characters are those of 01100 and 11000, the last two bits zero fill. -/
theorem witness_Base32EncodingShape :
    b32encode (ascii "f") = [b32Char 0b01100, b32Char 0b11000] ++ List.replicate 6 0x3D := by decide

/-- R55 to R60: what the output registers read, the unused bits 0. -/
theorem test_output_reads :
    (({ State.reset with ctrOut := 0x0000000700000009 }).perform (.read 32 0x04C)).resp = okayRead 7 ∧
    (({ State.reset with rem := 31 }).perform (.read 32 0x050)).resp = okayRead 0x1F ∧
    (({ State.reset with vmatch := true, cdig := 6 }).perform (.read 32 0x064)).resp = okayRead 0x106 := by decide

/-- R156: each operand left out on its own, and each refusal. -/
theorem witness_AssemblerIssuesLegalWords :
    (AsmOp.totp (some 8) (some .arg) none).accesses = some [.wr .cmd 0x184] ∧
    (AsmOp.totp none none (some .txt)).accesses = some [.wr .cmd 0x204] ∧
    (AsmOp.verify none none (some .arg) none).accesses = some [.wr .cmd 0x505] ∧
    (AsmOp.verify (some 7) (some 15) none none).accesses = some [.wr .cmd 0x3C75] ∧
    (AsmOp.verify none (some 16) none none).accesses = none ∧
    (AsmOp.totp (some 5) none none).accesses = none ∧ (AsmOp.verify (some 9) none none none).accesses = none ∧
    (AsmOp.ctrfor none).accesses = some [.wr .cmd 0x8] ∧ (AsmOp.remsec (some .arg)).accesses = some [.wr .cmd 0x109] := by
  decide

theorem witness_asmDigitsRefused : asmDigitsRefused (some 5) ∧ asmDigitsRefused (some 9) ∧ ¬asmDigitsRefused none ∧
    ¬asmDigitsRefused (some 6) ∧ ¬asmDigitsRefused (some 8) := by
  simp [asmDigitsRefused]

end Sys2Proof.Tests
end

section
/-! PROOFS. The register map read both ways: what stands at an offset, and where a register stands (R40, R108). -/

namespace Sys2Proof.Machine

/-! ### The register map (R40, R108) -/

/-- A register that stands alone is the register at its offset. -/
theorem regAt_of_mem_regMap {off : Nat} {r : Reg} (h : (off, r) ∈ regMap) : regAt off = r := by
  have key : ∀ e ∈ regMap, regAt e.1 = e.2 := by decide
  exact key _ h

/-- The registers that stand alone lie outside every buffer. -/
theorem not_inBuffer_of_mem_regMap {off : Nat} {r : Reg} (h : (off, r) ∈ regMap) (b : Buffer) :
    inBuffer off b = false := by
  have key : ∀ e ∈ regMap, ∀ c ∈ allBuffers, inBuffer e.1 c = false := by decide
  exact key _ h b (mem_allBuffers b)

/-- No offset lies in two buffers. -/
theorem inBuffer_unique {off : Nat} {b c : Buffer} (hb : inBuffer off b = true) (hc : inBuffer off c = true) :
    b = c := by
  by_contra hne
  simp only [inBuffer, decide_eq_true_eq] at hb hc
  have hd := buffers_disjoint hne (i := off - bufBase c) (by omega)
  rw [Nat.add_sub_cancel' hc.1] at hd
  exact hd hb

/-- What stands at an offset: a register of its own, a buffer word, or nothing. -/
theorem regAt_cases (off : Nat) :
    (off, regAt off) ∈ regMap ∨
    (∃ b, inBuffer off b = true ∧ regAt off = .buf b ((off - bufBase b) / 4)) ∨
    regAt off = .reserved := by
  unfold regAt
  split
  · next r hr =>
    obtain ⟨l₁, l₂, hl, -⟩ := List.lookup_eq_some_iff.mp hr
    exact .inl (by rw [hl]; simp)
  · split
    · next b hb => exact .inr (.inl ⟨b, List.find?_some hb, rfl⟩)
    · exact .inr (.inr rfl)

/-- Only an offset of a buffer holds a buffer word, and it is the word of the offset. -/
theorem inBuffer_of_regAt {off : Nat} {b : Buffer} {j : Nat} (h : regAt off = .buf b j) :
    inBuffer off b = true ∧ j = (off - bufBase b) / 4 := by
  rcases regAt_cases off with hm | ⟨c, hc, hr⟩ | hr
  · rw [h] at hm
    simp [regMap] at hm
  · rw [h] at hr
    cases hr
    exact ⟨hc, rfl⟩
  · rw [h] at hr
    cases hr

/-- Every offset of a buffer holds one of its words. -/
theorem regAt_of_inBuffer {off : Nat} {b : Buffer} (h : inBuffer off b = true) :
    regAt off = .buf b ((off - bufBase b) / 4) := by
  have hn : regMap.lookup off = none := by
    refine Option.eq_none_iff_forall_ne_some.mpr fun r hr => ?_
    obtain ⟨l₁, l₂, hl, -⟩ := List.lookup_eq_some_iff.mp hr
    have := not_inBuffer_of_mem_regMap (off := off) (r := r) (by rw [hl]; simp) b
    simp [h] at this
  obtain ⟨c, hc⟩ : ∃ c, allBuffers.find? (inBuffer off) = some c :=
    Option.isSome_iff_exists.mp (List.find?_isSome.mpr ⟨b, mem_allBuffers b, h⟩)
  have hcb : c = b := inBuffer_unique (List.find?_some hc) h
  simp only [regAt, hn, hc, hcb]

/-- Word j of a buffer stands at the buffer's base plus 4j. -/
theorem regAt_bufWord {b : Buffer} {j : Nat} (h : 4 * j < bufSize b) : regAt (bufBase b + 4 * j) = .buf b j := by
  rw [regAt_of_inBuffer (inBuffer_self h)]
  congr 1
  omega

/-- A register other than a buffer word and a reserved offset is listed in the map. -/
theorem mem_regMap_of_regAt {off : Nat} {r : Reg} (h : regAt off = r) (hb : ∀ b j, r ≠ .buf b j)
    (hr : r ≠ .reserved) : (off, r) ∈ regMap := by
  rcases regAt_cases off with hm | ⟨b, -, hb'⟩ | hr'
  · exact h ▸ hm
  · exact absurd (h.symm.trans hb') (hb _ _)
  · exact absurd (h.symm.trans hr') hr

/-- A buffer is a whole number of words at an aligned offset. -/
theorem bufBase_bufSize_aligned (b : Buffer) : bufBase b % 4 = 0 ∧ bufSize b % 4 = 0 := by
  cases b <;> decide

/-- The four bytes of a word the map holds lie inside its buffer. -/
theorem bufWord_in_range {off : Nat} {b : Buffer} {j : Nat} (h : regAt off = .buf b j) : 4 * j + 4 ≤ bufSize b := by
  obtain ⟨hb, rfl⟩ := inBuffer_of_regAt h
  simp only [inBuffer, decide_eq_true_eq] at hb
  have := bufBase_bufSize_aligned b
  omega

/-- The offset of a register the map holds is the one it stands at. -/
theorem regOffset_regAt {off : Nat} (h4 : off % 4 = 0) (hr : regAt off ≠ .reserved) :
    regOffset (regAt off) = some off := by
  rcases regAt_cases off with hm | ⟨b, hb, hw⟩ | hr'
  · have key : ∀ e ∈ regMap, regOffset e.2 = some e.1 := by decide
    exact key _ hm
  · rw [hw]
    simp only [inBuffer, decide_eq_true_eq] at hb
    have := bufBase_bufSize_aligned b
    simp only [regOffset, Option.some.injEq]
    omega
  · exact absurd hr' hr

/-- Two aligned offsets do not hold the same register. -/
theorem regAt_injective {o off : Nat} (ho : o % 4 = 0) (hoff : off % 4 = 0) (hr : regAt off ≠ .reserved)
    (h : regAt o = regAt off) : o = off := by
  have h1 := regOffset_regAt hoff hr
  rw [← h, regOffset_regAt ho (h ▸ hr)] at h1
  exact Option.some.inj h1

/-- A locked offset other than CMD's holds an operand register (R33, R106). -/
theorem isOperand_of_lockedOffset {off : Nat} (h : lockedOffset off) (h8 : off ≠ 0x008) :
    (regAt off).isOperand = true := by
  have buffer : ∀ b, bufIsOperand b = true → bufBase b ≤ off → off < bufBase b + bufSize b →
      (regAt off).isOperand = true := fun b hb h1 h2 => by
    rw [regAt_of_inBuffer (b := b) (by simp [inBuffer, h1, h2])]
    exact hb
  obtain ⟨h4, hc | hl | hcand | hbuf⟩ := h
  · exact absurd hc h8
  · obtain rfl | rfl | rfl | rfl | rfl | rfl | rfl : off = 0x014 ∨ off = 0x018 ∨ off = 0x01C ∨ off = 0x020 ∨
        off = 0x024 ∨ off = 0x028 ∨ off = 0x02C := by omega
    all_goals rfl
  · by_cases hlen : off = 0x03C
    · subst hlen; rfl
    · exact buffer .cand rfl (show 0x040 ≤ off by omega) (show off < 0x048 by omega)
  · by_cases hk : off < 0x140
    · exact buffer .key rfl (show 0x100 ≤ off by omega) (show off < 0x140 by omega)
    · by_cases hm : off < 0x180
      · exact buffer .msg rfl (show 0x140 ≤ off by omega) (show off < 0x180 by omega)
      · exact buffer .txt rfl (show 0x180 ≤ off by omega) (show off < 0x200 by omega)

end Sys2Proof.Machine
end

section
/-! PROOFS. The words of a byte buffer (R110), and what an event leaves of the outputs and of memory (R34, R44). -/

namespace Sys2Proof.Machine

/-! ### Buffer words (R110) -/

/-- A byte of memory after a buffer word was written. -/
theorem State.read_setBufWord (s : State) (b : Buffer) (j : Nat) (v : Word) (x : Nat) :
    Memory.read (s.setBufWord b j v).mem x =
      if bufBase b + 4 * j ≤ x ∧ x < bufBase b + 4 * j + 4 then (lanes v).getD (x - (bufBase b + 4 * j)) 0
      else Memory.read s.mem x :=
  Memory.read_fill s.mem _ 4 (lanes v) x

/-- The four bytes of the written word are its lanes. -/
theorem State.byte_setBufWord_same (s : State) (b : Buffer) (j : Nat) (v : Word) {i : Nat} (h : i < 4) :
    (s.setBufWord b j v).byte b (4 * j + i) = (lanes v).getD i 0 := by
  rw [State.byte, State.read_setBufWord, if_pos (by omega)]
  congr 1
  omega

/-- Every other byte of every buffer stays. -/
theorem State.byte_setBufWord_other (s : State) {b c : Buffer} {j i : Nat} (v : Word) (hj : 4 * j + 4 ≤ bufSize b)
    (hi : i < bufSize c) (h : b = c → i < 4 * j ∨ 4 * j + 4 ≤ i) : (s.setBufWord b j v).byte c i = s.byte c i := by
  rw [State.byte, State.read_setBufWord, if_neg, State.byte]
  intro hr
  by_cases hbc : b = c
  · subst hbc
    have := h rfl
    omega
  · exact buffers_disjoint hbc hi (by omega)

/-- The lanes of a word put together again. -/
theorem le32_lanes (v : Word) :
    le32 ((lanes v).getD 0 0) ((lanes v).getD 1 0) ((lanes v).getD 2 0) ((lanes v).getD 3 0) = v := by
  simp only [le32, lanes, List.getD_cons_zero, List.getD_cons_succ]
  rw [BitVec.extractLsb'_append_extractLsb'_eq_extractLsb' (start₁ := 16) (len₁ := 8) (by decide),
    BitVec.extractLsb'_append_extractLsb'_eq_extractLsb' (start₁ := 8) (len₁ := 8) (by decide)]
  exact (BitVec.extractLsb'_append_extractLsb'_eq_extractLsb' rfl).trans BitVec.extractLsb'_eq_self

/-- A written buffer word reads back. -/
theorem State.bufWord_setBufWord_same (s : State) (b : Buffer) (j : Nat) (v : Word) :
    (s.setBufWord b j v).bufWord b j = v := by
  have h0 := s.byte_setBufWord_same b j v (i := 0) (by omega)
  rw [Nat.add_zero] at h0
  rw [State.bufWord, h0, s.byte_setBufWord_same b j v (by omega), s.byte_setBufWord_same b j v (by omega),
    s.byte_setBufWord_same b j v (by omega), le32_lanes]

/-- Every other buffer word stays. -/
theorem State.bufWord_setBufWord_other (s : State) {b c : Buffer} {j k : Nat} (v : Word) (hj : 4 * j + 4 ≤ bufSize b)
    (hk : 4 * k + 4 ≤ bufSize c) (h : Reg.buf c k ≠ .buf b j) : (s.setBufWord b j v).bufWord c k = s.bufWord c k := by
  have hbyte : ∀ i < 4, (s.setBufWord b j v).byte c (4 * k + i) = s.byte c (4 * k + i) := fun i hi => by
    refine s.byte_setBufWord_other v hj (by omega) fun hbc => ?_
    subst hbc
    have : k ≠ j := fun hkj => h (by rw [hkj])
    omega
  have h0 := hbyte 0 (by omega)
  rw [Nat.add_zero] at h0
  rw [State.bufWord, h0, hbyte 1 (by omega), hbyte 2 (by omega), hbyte 3 (by omega), State.bufWord]

/-! ### What events leave (R34, R44, R105) -/

/-- The fields that only a completion or a reset writes: the outputs and the record of the last command (R34, R44). -/
structure State.KeepsRecord (s t : State) : Prop where
  ctrOut : t.ctrOut = s.ctrOut
  rem : t.rem = s.rem
  trunc : t.trunc = s.trunc
  code : t.code = s.code
  cdig : t.cdig = s.cdig
  vmatch : t.vmatch = s.vmatch
  err : t.err = s.err
  lastop : t.lastop = s.lastop

/-- A register write leaves the record of the last command. -/
theorem State.writeReg_keepsRecord (s : State) (r : Reg) (v : Word) : s.KeepsRecord (s.writeReg r v) := by
  cases r with
  | buf b j =>
    simp only [State.writeReg]
    split <;> constructor <;> rfl
  | _ => constructor <;> rfl

/-- A register write leaves memory, or it is a write of a word of an operand buffer. -/
theorem State.writeReg_mem_cases (s : State) (r : Reg) (v : Word) :
    (s.writeReg r v).mem = s.mem ∨
    ∃ b j, r = .buf b j ∧ bufIsOperand b = true ∧ (s.writeReg r v).mem = (s.setBufWord b j v).mem := by
  cases r with
  | buf b j =>
    simp only [State.writeReg]
    split
    · next hb => exact .inr ⟨b, j, rfl, hb, rfl⟩
    · exact .inl rfl
  | _ => exact .inl rfl

/-- A bus write is unsupported, dropped, or a register write (R101, R103, R106); besides that it sets the response. -/
theorem State.busWrite_cases (s : State) (bits : Nat) (off : BitVec 12) (v : Word) :
    ∃ p, s.busWrite bits off v = { s with resp := p } ∨ s.busWrite bits off v = { s.dropWrite with resp := p } ∨
      s.busWrite bits off v = { s.writeReg (regAt off.toNat) v with resp := p } := by
  unfold State.busWrite State.busWriteReg
  split
  · split
    · exact ⟨_, .inr (.inl rfl)⟩
    · exact ⟨_, .inr (.inr rfl)⟩
  · exact ⟨_, .inl rfl⟩

/-- A bus read changes the response and TIME_HI_SNAP alone (R102). -/
theorem State.busRead_frame (s : State) (bits : Nat) (off : BitVec 12) :
    s.busRead bits off =
      { s with timeHiSnap := (s.busRead bits off).timeHiSnap, resp := (s.busRead bits off).resp } := by
  unfold State.busRead State.afterRead
  split
  · split <;> rfl
  · rfl

/-- No event but a reset changes the record of the last command. -/
theorem State.perform_keepsRecord (s : State) {e : Event} (he : e ≠ .reset) : s.KeepsRecord (s.perform e) := by
  cases e with
  | read bits off =>
    rw [State.perform, State.busRead_frame]
    constructor <;> rfl
  | write bits off v =>
    rw [State.perform]
    obtain ⟨p, h | h | h⟩ := s.busWrite_cases bits off v <;> rw [h]
    · constructor <;> rfl
    · constructor <;> rfl
    · exact { s.writeReg_keepsRecord (regAt off.toNat) v with }
  | tick => constructor <;> rfl
  | complete => constructor <;> rfl
  | reset => exact absurd rfl he

/-- No event but a reset changes memory, short of the write of a word of an operand buffer. -/
theorem State.perform_mem_cases (s : State) {e : Event} (he : e ≠ .reset) :
    (s.perform e).mem = s.mem ∨
    ∃ b j v, bufIsOperand b = true ∧ 4 * j + 4 ≤ bufSize b ∧ (s.perform e).mem = (s.setBufWord b j v).mem := by
  cases e with
  | read bits off =>
    rw [State.perform, State.busRead_frame]
    exact .inl rfl
  | write bits off v =>
    rw [State.perform]
    obtain ⟨p, h | h | h⟩ := s.busWrite_cases bits off v <;> rw [h]
    · exact .inl rfl
    · exact .inl rfl
    · rcases s.writeReg_mem_cases (regAt off.toNat) v with hm | ⟨b, j, hr, hb, hm⟩
      · exact .inl hm
      · exact .inr ⟨b, j, v, hb, bufWord_in_range hr, hm⟩
  | tick => exact .inl rfl
  | complete => exact .inl rfl
  | reset => exact absurd rfl he

/-- A byte depends on memory alone. -/
theorem State.byte_congr {s t : State} (h : t.mem = s.mem) (b : Buffer) (i : Nat) : t.byte b i = s.byte b i := by
  rw [State.byte, h, State.byte]

/-- No event but a reset changes a byte of an output buffer. -/
theorem State.perform_outputByte (s : State) {e : Event} (he : e ≠ .reset) {b : Buffer} (hb : bufIsOperand b = false)
    {i : Nat} (hi : i < bufSize b) : (s.perform e).byte b i = s.byte b i := by
  rcases s.perform_mem_cases he with hm | ⟨c, j, v, hc, hj, hm⟩
  · exact State.byte_congr hm b i
  · rw [State.byte_congr hm]
    refine s.byte_setBufWord_other v hj hi fun hcb => ?_
    rw [hcb, hb] at hc
    cases hc

end Sys2Proof.Machine
end

section
/-! PROOFS. The bits of the packed registers, and what a supported access does. -/

namespace Sys2Proof.Machine

/-! ### Halves, masks and flag words (R32, R44, R45, R60, R111) -/

/-- The two halves of a 64-bit value put together again (R111). -/
theorem hiHalf_append_loHalf (x : DWord) : hiHalf x ++ loHalf x = x :=
  (BitVec.extractLsb'_append_extractLsb'_eq_extractLsb' rfl).trans BitVec.extractLsb'_eq_self

@[simp] theorem loHalf_append (hi lo : Word) : loHalf (hi ++ lo) = lo := BitVec.extractLsb'_append_eq_right

@[simp] theorem hiHalf_append (hi lo : Word) : hiHalf (hi ++ lo) = hi := BitVec.extractLsb'_append_eq_left

/-- A field of n bits reads as the word written, its other bits 0 (R32). -/
theorem setWidth_setWidth_eq_and (v : Word) {n : Nat} (h : n ≤ 32) :
    (v.setWidth n).setWidth 32 = v &&& BitVec.ofNat 32 (2 ^ n - 1) := by
  have hle : 2 ^ n ≤ 2 ^ 32 := Nat.pow_le_pow_right (by decide) h
  have hpos : 0 < 2 ^ n := by positivity
  refine BitVec.eq_of_toNat_eq ?_
  rw [BitVec.toNat_and, BitVec.toNat_ofNat, Nat.mod_eq_of_lt (a := 2 ^ n - 1) (by omega),
    Nat.and_two_pow_sub_one_eq_mod, BitVec.toNat_setWidth, BitVec.toNat_setWidth, Nat.mod_eq_of_lt]
  exact lt_of_lt_of_le (Nat.mod_lt _ hpos) hle

/-- The flag bits of STATUS (R44). -/
theorem State.statusWord_flags (s : State) :
    s.statusWord.getLsbD 0 = s.busy ∧ s.statusWord.getLsbD 1 = s.done ∧ s.statusWord.getLsbD 2 = s.win ∧
      s.statusWord.getLsbD 3 = s.drop := by
  simp only [State.statusWord, flagBit, BitVec.getLsbD_append (n := 31) (m := 1), BitVec.getLsbD_append,
    BitVec.getLsbD_ofBool]
  simp

/-- The fields of STATUS above its flags (R44). -/
theorem State.statusWord_fields (s : State) :
    s.statusWord.extractLsb' 4 4 = 0 ∧ s.statusWord.extractLsb' 8 4 = errBits s.err ∧
      s.statusWord.extractLsb' 12 4 = s.lastop ∧ s.statusWord.extractLsb' 16 16 = 0 := by
  simp (disch := decide) only [State.statusWord, BitVec.extractLsb'_append_eq_of_le (v := 31) (w := 1),
    BitVec.extractLsb'_append_eq_of_le, BitVec.extractLsb'_append_eq_right, BitVec.extractLsb'_eq_self, Nat.reduceSub]
  simp

/-- The bits of IE (R45). -/
theorem State.ieWord_bits (s : State) :
    s.ieWord.getLsbD 0 = false ∧ s.ieWord.getLsbD 1 = s.doneIe ∧ s.ieWord.getLsbD 2 = s.winIe ∧
      s.ieWord.getLsbD 3 = s.dropIe ∧ s.ieWord.extractLsb' 4 28 = 0 := by
  simp (disch := decide) only [State.ieWord, flagBit, BitVec.getLsbD_append (n := 31) (m := 1), BitVec.getLsbD_append,
    BitVec.getLsbD_ofBool, BitVec.extractLsb'_append_eq_of_le (v := 31) (w := 1), BitVec.extractLsb'_append_eq_of_le,
    BitVec.extractLsb'_eq_self, Nat.reduceSub]
  simp

/-- The fields of RESULT (R60). -/
theorem State.resultWord_fields (s : State) :
    s.resultWord.extractLsb' 0 4 = s.cdig ∧ s.resultWord.extractLsb' 4 4 = 0 ∧
      s.resultWord.getLsbD 8 = s.vmatch ∧ s.resultWord.extractLsb' 9 23 = 0 := by
  refine ⟨BitVec.extractLsb'_append_eq_right, ?_, ?_, ?_⟩
  · simp (disch := decide) only [State.resultWord, BitVec.extractLsb'_append_eq_of_le (v := 28) (w := 4),
      BitVec.extractLsb'_append_eq_right, Nat.reduceSub]
    rfl
  · simp only [State.resultWord, flagBit, BitVec.getLsbD_append (n := 28) (m := 4), BitVec.getLsbD_append,
      BitVec.getLsbD_ofBool]
    simp
  · simp (disch := decide) only [State.resultWord, BitVec.extractLsb'_append_eq_of_le (v := 28) (w := 4),
      BitVec.extractLsb'_append_eq_of_le, BitVec.extractLsb'_eq_self, Nat.reduceSub]
    rfl

/-! ### Supported accesses (R101, R102, R106) -/

/-- The response of a supported read is the register's value (R101). -/
theorem State.perform_read_resp (s : State) {off : BitVec 12} (h : off.toNat % 4 = 0) :
    (s.perform (.read 32 off)).resp = okayRead (s.regValue (regAt off.toNat)) := by
  have hs : supported 32 off = true := by simp [supported, h]
  rw [State.perform, State.busRead, if_pos hs]
  rfl

/-- A supported write while BUSY = 0 is a register write (R101, R106). -/
theorem State.perform_write_idle (s : State) {off : BitVec 12} (v : Word) (h : off.toNat % 4 = 0)
    (hb : s.busy = false) :
    s.perform (.write 32 off v) = { s.writeReg (regAt off.toNat) v with resp := okayWrite } := by
  have hs : supported 32 off = true := by simp [supported, h]
  have hl : ¬((regAt off.toNat).isLocked && s.busy) = true := by simp [hb]
  rw [State.perform, State.busWrite, if_pos hs, State.busWriteReg, if_neg hl]
  rfl

/-- No register shows the response. -/
theorem State.regValue_setResp (s : State) (p : Option Response) (r : Reg) :
    ({ s with resp := p } : State).regValue r = s.regValue r := by
  cases r <;> rfl

end Sys2Proof.Machine
end

section
/-! PROOFS. Every step keeps the invariant. -/

namespace Sys2Proof.Machine

/-! ### The invariant (R40, R55 to R60, R283, R284) -/

/-- A byte inside a buffer, by its address. -/
theorem any_inBuffer {a : Nat} {b : Buffer} (h : inBuffer a b = true) : allBuffers.any (inBuffer a) = true :=
  List.any_eq_true.mpr ⟨b, mem_allBuffers b, h⟩

/-- A fill inside a buffer stays inside the map. -/
theorem Memory.inBuffers_fill {m : Memory} (h : Memory.inBuffers m) {b : Buffer} {k n : Nat} (hn : k + n ≤ bufSize b)
    (bs : List Byte) : Memory.inBuffers (Memory.fill m (bufBase b + k) n bs) := by
  intro c hc
  rcases Memory.mem_fill hc with hr | hm
  · exact any_inBuffer (b := b) (by simp only [inBuffer, decide_eq_true_eq]; omega)
  · exact h c hm

/-- Writing a whole buffer stays inside the map. -/
theorem Memory.inBuffers_setBuf {m : Memory} (h : Memory.inBuffers m) (b : Buffer) (bs : List Byte) :
    Memory.inBuffers (Memory.setBuf m b bs) :=
  Memory.inBuffers_fill h (k := 0) (by omega) bs

/-- Clearing every buffer stays inside the map. -/
theorem Memory.inBuffers_clearBuffers {m : Memory} (h : Memory.inBuffers m) :
    Memory.inBuffers (Memory.clearBuffers m) :=
  fun c hc => h c (List.mem_filter.mp hc).1

/-- The bytes of a buffer, byte by byte. -/
theorem State.bytes_congr {s t : State} {b : Buffer} {n : Nat} (h : ∀ i < n, t.byte b i = s.byte b i) :
    t.bytes b n = s.bytes b n :=
  List.map_congr_left fun i hi => h i (List.mem_range.mp hi)

/-- CODEA, TRUNC, CODE and CDIG decide whether the code outputs agree. -/
theorem State.codesAgree_congr {s t : State} (h : s.codesAgree) (hb : t.bytes .codea 8 = s.bytes .codea 8)
    (ht : t.trunc = s.trunc) (hc : t.code = s.code) (hd : t.cdig = s.cdig) : t.codesAgree := by
  unfold State.codesAgree
  rw [hb, ht, hc, hd]
  exact h

/-- The counter of a time is one that CTR_OUT can hold (R55, R320). -/
theorem counterFor_le (x : DWord) : counterFor x ≤ 614891469123651720 := by
  have := x.isLt
  simp only [counterFor, Config.timeStep]
  omega

/-- The countdown of a time is at most 30 (R56, R321). -/
theorem remaining_le (x : DWord) : remaining x ≤ 30 := by
  simp only [remaining, Config.timeStep]
  omega

/-- CTR_OUT as TOTP, VERIFY and CTRFOR write it. -/
theorem ctrOut_counterFor_le (x : DWord) : (BitVec.ofNat 64 (counterFor x)).toNat ≤ 614891469123651720 := by
  have := counterFor_le x
  rw [BitVec.toNat_ofNat]
  omega

/-- REM as TOTP and REMSEC write it. -/
theorem rem_remaining_le (x : DWord) : (BitVec.ofNat 5 (remaining x)).toNat ≤ 30 := by
  have := remaining_le x
  rw [BitVec.toNat_ofNat]
  omega

/-- The truncated value has 31 bits (R282). -/
theorem truncValue_lt (h : List Byte) : truncValue h < 2 ^ 31 := by
  have top : ∀ x : Byte, (x &&& 0x7F).toNat < 2 ^ 7 := fun x => by
    rw [BitVec.toNat_and]
    exact Nat.and_lt_two_pow _ (by decide)
  have shifted : ∀ {n k a : Nat}, a < 2 ^ n → n + k ≤ 31 → a <<< k < 2 ^ 31 := fun {n k a} ha hk =>
    lt_of_lt_of_le (Nat.shiftLeft_lt ha) (Nat.pow_le_pow_right (by decide) hk)
  unfold truncValue
  refine Nat.or_lt_two_pow (Nat.or_lt_two_pow (Nat.or_lt_two_pow ?_ ?_) ?_) ?_
  · exact shifted (top _) (by decide)
  · exact shifted (BitVec.isLt _) (by decide)
  · exact shifted (BitVec.isLt _) (by decide)
  · exact lt_of_lt_of_le (BitVec.isLt _) (by decide)

/-- CODEA after the code outputs were written (R284). -/
theorem State.bytes_setCode_codea (s : State) (k : List Byte) (c : Nat) {d : Nat} (hd : d ≤ 8) :
    (s.setCode (hotpCore k c d) d).bytes .codea 8 =
      asciiDigits d (hotpCore k c d).code ++ List.replicate (8 - d) 0 := by
  have hl : (asciiDigits d (hotpCore k c d).code).length = d := by simp [asciiDigits]
  have := (s.setBuf .digest (hotpCore k c d).digest).bytes_setBuf_same .codea
    (bs := asciiDigits d (hotpCore k c d).code) (by rw [hl]; exact hd)
  rwa [hl] at this

/-- The code outputs agree once HOTP or TOTP wrote them (R283, R284). -/
theorem State.codesAgree_setCode (s : State) (k : List Byte) (c : Nat) {d : Nat} (hd : d = 6 ∨ d = 7 ∨ d = 8) :
    (s.setCode (hotpCore k c d) d).codesAgree := by
  have hdig : (BitVec.ofNat 4 d).toNat = d := by rw [BitVec.toNat_ofNat]; omega
  have hp : (BitVec.ofNat 31 (hotpCore k c d).p).toNat = (hotpCore k c d).p :=
    Nat.mod_eq_of_lt (truncValue_lt _)
  have hcode : (BitVec.ofNat 27 (hotpCore k c d).code).toNat = (hotpCore k c d).code := by
    refine Nat.mod_eq_of_lt (lt_of_lt_of_le (Nat.mod_lt _ (by positivity)) ?_)
    calc 10 ^ d ≤ 10 ^ 8 := Nat.pow_le_pow_right (by decide) (by omega)
      _ ≤ 2 ^ 27 := by decide
  refine .inr ⟨?_, ?_, ?_⟩
  · rw [State.setCode_cdig]
    obtain rfl | rfl | rfl := hd <;> decide
  · rw [State.setCode_cdig, State.setCode_code, State.setCode_trunc, hdig, hp, hcode]
    rfl
  · rw [State.setCode_cdig, State.setCode_code, hdig, hcode, s.bytes_setCode_codea k c (by omega)]

theorem State.Inv.wf {s : State} (h : s.Inv) : Memory.wf s.mem := h.1

theorem State.Inv.inBuffers {s : State} (h : s.Inv) : Memory.inBuffers s.mem := h.2.1

theorem State.Inv.rem_le {s : State} (h : s.Inv) : s.rem.toNat ≤ 30 := by
  obtain ⟨-, -, hrem, -, -⟩ := h
  exact hrem

theorem State.Inv.ctrOut_le {s : State} (h : s.Inv) : s.ctrOut.toNat ≤ 614891469123651720 := by
  obtain ⟨-, -, -, hctr, -⟩ := h
  exact hctr

/-- The invariant after a write of memory that CODEA does not see. -/
theorem State.Inv.of_mem {s t : State} (h : s.Inv) (hwf : Memory.wf t.mem) (hin : Memory.inBuffers t.mem)
    (hb : t.bytes .codea 8 = s.bytes .codea 8) (hr : t.rem = s.rem) (ho : t.ctrOut = s.ctrOut) (ht : t.trunc = s.trunc)
    (hc : t.code = s.code) (hd : t.cdig = s.cdig) : t.Inv := by
  obtain ⟨-, -, hrem, hctr, hagree⟩ := h
  exact ⟨hwf, hin, hr ▸ hrem, ho ▸ hctr, State.codesAgree_congr hagree hb ht hc hd⟩

/-- CTR_OUT and REM may be written within their ranges. -/
theorem State.Inv.of_times {s t : State} (h : s.Inv) (hm : t.mem = s.mem) (ht : t.trunc = s.trunc)
    (hc : t.code = s.code) (hd : t.cdig = s.cdig) (ho : t.ctrOut.toNat ≤ 614891469123651720)
    (hr : t.rem.toNat ≤ 30) : t.Inv := by
  obtain ⟨hwf, hin, -, -, hagree⟩ := h
  exact ⟨hm ▸ hwf, hm ▸ hin, hr, ho,
    State.codesAgree_congr hagree (State.bytes_congr fun i _ => State.byte_congr hm _ i) ht hc hd⟩

/-- A whole buffer other than CODEA may be written. -/
theorem State.Inv.setBuf {s : State} (h : s.Inv) {b : Buffer} (bs : List Byte) (hb : b ≠ .codea) :
    (s.setBuf b bs).Inv :=
  h.of_mem (Memory.wf_setBuf h.wf b bs) (Memory.inBuffers_setBuf h.inBuffers b bs)
    (s.bytes_setBuf_other bs hb (le_refl (bufSize .codea))) rfl rfl rfl rfl rfl

/-- The code outputs of HOTP keep the invariant (R286). -/
theorem State.Inv.setCode {s : State} (h : s.Inv) (k : List Byte) (c : Nat) {d : Nat} (hd : d = 6 ∨ d = 7 ∨ d = 8) :
    (s.setCode (hotpCore k c d) d).Inv := by
  obtain ⟨hwf, hin, hrem, hctr, -⟩ := h
  exact ⟨Memory.wf_setBuf (Memory.wf_setBuf hwf _ _) _ _, Memory.inBuffers_setBuf (Memory.inBuffers_setBuf hin _ _) _ _,
    hrem, hctr, s.codesAgree_setCode k c hd⟩

/-- Every buffer byte is 0 after ZERO (R350). -/
theorem State.byte_zeroed (s : State) {b : Buffer} {i : Nat} (h : i < bufSize b) : s.zeroed.byte b i = 0 := by
  rw [State.byte, State.zeroed_mem, Memory.read_clearBuffers, if_pos (any_inBuffer (inBuffer_self h))]

/-- ZERO keeps the invariant (R350). -/
theorem State.Inv.zeroed {s : State} (h : s.Inv) : s.zeroed.Inv := by
  obtain ⟨hwf, hin, -, -, -⟩ := h
  refine ⟨Memory.wf_clearBuffers hwf, Memory.inBuffers_clearBuffers hin, Nat.zero_le _, Nat.zero_le _,
    .inl ⟨rfl, rfl, rfl, ?_⟩⟩
  refine List.eq_replicate_iff.mpr ⟨by simp [State.bytes], fun x hx => ?_⟩
  obtain ⟨i, hi, rfl⟩ := List.mem_map.mp hx
  exact s.byte_zeroed (b := .codea) (List.mem_range.mp hi)

/-- The writes of a successful command keep the invariant. -/
theorem resultOf_keepsInv {i : Instr} {s t : State} (h : s.Inv) (hr : resultOf i s = .ok t) : t.Inv := by
  cases i with
  | sha1 => obtain ⟨-, rfl⟩ := sha1Result_ok hr; exact h.setBuf _ (by decide)
  | hmac => obtain ⟨-, -, -, rfl⟩ := hmacResult_ok hr; exact h.setBuf _ (by decide)
  | hotp f => obtain ⟨d, -, -, hd, rfl⟩ := hotpResult_ok hr; exact h.setCode _ _ (digitsOf_some hd)
  | totp f x src =>
    obtain ⟨k, d, -, -, -, hd, rfl⟩ := totpResult_ok hr
    exact (h.setCode k (counterFor s.sTime) (digitsOf_some hd)).of_times rfl rfl rfl rfl (ctrOut_counterFor_le _)
      (rem_remaining_le _)
  | verify f x src w =>
    obtain ⟨k, d, -, -, -, -, -, rfl⟩ := verifyResult_ok hr
    exact h.of_times rfl rfl rfl rfl (ctrOut_counterFor_le _) h.rem_le
  | b32enc =>
    obtain ⟨-, rfl⟩ := b32encResult_ok hr
    exact (h.setBuf (b := .txt) _ (by decide)).of_times rfl rfl rfl rfl h.ctrOut_le h.rem_le
  | b32dec =>
    obtain ⟨r, -, -, -, rfl⟩ := b32decResult_ok hr
    exact (h.setBuf (b := .key) _ (by decide)).of_times rfl rfl rfl rfl h.ctrOut_le h.rem_le
  | ctrfor x => cases hr; exact h.of_times rfl rfl rfl rfl (ctrOut_counterFor_le _) h.rem_le
  | remsec x => cases hr; exact h.of_times rfl rfl rfl rfl h.ctrOut_le (rem_remaining_le _)
  | zero => cases hr; exact h.zeroed
  | nop => cases hr; exact h

/-- The record of a completion keeps the invariant. -/
theorem State.Inv.finish {s : State} (h : s.Inv) (e : ErrCode) : (s.finish e).Inv := h

/-- A completion keeps the invariant, the latched word being a command or not. -/
theorem completion_keepsInv {s t : State} (h : s.Inv) (hc : completion s = .next t) : t.Inv := by
  cases hd : decode s.cmdLatch with
  | ok i =>
    rw [completion_of_decode hd] at hc
    rcases exec_cases hc with ⟨u, hu, rfl⟩ | ⟨e, -, rfl⟩
    · exact (resultOf_keepsInv h hu).finish .ok
    · exact h.finish e
  | error r =>
    rw [completion_of_reject hd] at hc
    cases hc
    exact h.finish .illegalCmd

/-- The invariant holds at reset (R450). -/
theorem reset_inv : State.reset.Inv :=
  ⟨Memory.wf_nil, fun _ hc => absurd hc List.not_mem_nil, Nat.zero_le _, Nat.zero_le _, .inl ⟨rfl, rfl, rfl, rfl⟩⟩

/-- An event from outside the engine keeps the invariant. -/
theorem State.Inv.perform {s : State} (h : s.Inv) (e : Event) : (s.perform e).Inv := by
  by_cases he : e = .reset
  · subst he
    exact reset_inv
  · have hk := s.perform_keepsRecord he
    have hcodea : (s.perform e).bytes .codea 8 = s.bytes .codea 8 :=
      State.bytes_congr fun i hi => s.perform_outputByte he rfl hi
    obtain ⟨hwf, hin⟩ : Memory.wf (s.perform e).mem ∧ Memory.inBuffers (s.perform e).mem := by
      rcases s.perform_mem_cases he with hm | ⟨b, j, v, -, hj, hm⟩ <;> rw [hm]
      · exact ⟨h.wf, h.inBuffers⟩
      · exact ⟨Memory.wf_fill h.wf _ _ _, Memory.inBuffers_fill h.inBuffers hj _⟩
    exact h.of_mem hwf hin hcodea hk.rem hk.ctrOut hk.trunc hk.code hk.cdig

/-- Settles O56, by the cases of a step: a completion, an idle step, or an event from outside. -/
theorem stepKeepsInvariant : Obligations.StepKeepsInvariant := by
  intro s t h hs
  rcases step_cases hs with ⟨-, -, hc⟩ | ⟨-, -, rfl⟩ | ⟨es, -, -, hc⟩ | ⟨es, -, -, rfl⟩ | ⟨e, es, -, -, rfl⟩
  · exact completion_keepsInv h hc
  · exact h
  · exact completion_keepsInv (s := { s with inputs := es }) h hc
  · exact h
  · exact State.Inv.perform (s := { s with inputs := es }) h e

end Sys2Proof.Machine
end

section
/-! PROOFS. The registers at reads and writes: operands, STATUS and IE, outputs, and the map. -/

namespace Sys2Proof.Machine

/-! ### Operand registers written and read back (R32, R33, R46 to R54, R62 to R64) -/

/-- The defined bits of a register; R32 has the others read 0. -/
def Reg.definedBits : Reg → Word
  | .keylen => 0x7F
  | .msglen => 0x7F
  | .txtlen => 0xFF
  | .candlen => 0xF
  | _ => 0xFFFFFFFF

/-- The defined bits by offset (R46 to R48, R53). -/
theorem definedBits_regAt (off : BitVec 12) :
    (regAt off.toNat).definedBits =
      if off = 0x014 ∨ off = 0x018 then 0x7F else if off = 0x01C then 0xFF else if off = 0x03C then 0xF
      else 0xFFFFFFFF := by
  by_cases hk : off = 0x014
  · subst hk; rfl
  by_cases hm : off = 0x018
  · subst hm; rfl
  by_cases ht : off = 0x01C
  · subst ht; rfl
  by_cases hc : off = 0x03C
  · subst hc; rfl
  rw [if_neg (not_or.mpr ⟨hk, hm⟩), if_neg ht, if_neg hc]
  have eq_ofNat : ∀ {n : Nat}, off.toNat = n → off = BitVec.ofNat 12 n := fun h => by rw [← h, BitVec.ofNat_toNat]; simp
  cases hr : regAt off.toNat with
  | keylen => exact absurd (eq_ofNat (by simpa [regMap] using mem_regMap_of_regAt hr)) hk
  | msglen => exact absurd (eq_ofNat (by simpa [regMap] using mem_regMap_of_regAt hr)) hm
  | txtlen => exact absurd (eq_ofNat (by simpa [regMap] using mem_regMap_of_regAt hr)) ht
  | candlen => exact absurd (eq_ofNat (by simpa [regMap] using mem_regMap_of_regAt hr)) hc
  | _ => rfl

/-- A write of a word of an operand buffer (R54, R62 to R64). -/
theorem State.writeReg_operandWord (s : State) {b : Buffer} (j : Nat) (v : Word) (h : bufIsOperand b = true) :
    s.writeReg (.buf b j) v = s.setBufWord b j v := if_pos h

/-- A written operand register reads back, its undefined bits 0. -/
theorem State.regValue_writeReg_same (s : State) (v : Word) {r : Reg} (h : r.isOperand = true) :
    (s.writeReg r v).regValue r = v &&& r.definedBits := by
  cases r with
  | keylen => exact setWidth_setWidth_eq_and v (by decide)
  | msglen => exact setWidth_setWidth_eq_and v (by decide)
  | txtlen => exact setWidth_setWidth_eq_and v (by decide)
  | candlen => exact setWidth_setWidth_eq_and v (by decide)
  | ctrLo => exact (loHalf_append _ v).trans BitVec.and_allOnes.symm
  | ctrHi => exact (hiHalf_append v _).trans BitVec.and_allOnes.symm
  | targLo => exact (loHalf_append _ v).trans BitVec.and_allOnes.symm
  | targHi => exact (hiHalf_append v _).trans BitVec.and_allOnes.symm
  | buf b j =>
    rw [s.writeReg_operandWord j v h]
    exact (s.bufWord_setBufWord_same b j v).trans BitVec.and_allOnes.symm
  | _ => cases h

/-- A buffer word lies inside its buffer. -/
def Reg.inRange (r : Reg) : Prop := ∀ b j, r = .buf b j → 4 * j + 4 ≤ bufSize b

/-- Every register the map holds is in range. -/
theorem inRange_regAt (off : Nat) : (regAt off).inRange := fun _ _ h => bufWord_in_range h

/-- Every other register reads as before. -/
theorem State.regValue_writeReg_other (s : State) (v : Word) {r q : Reg} (hop : r.isOperand = true) (hr : r.inRange)
    (hq : q.inRange) (h : q ≠ r) : (s.writeReg r v).regValue q = s.regValue q := by
  cases r with
  | keylen => cases q with | keylen => exact absurd rfl h | _ => rfl
  | msglen => cases q with | msglen => exact absurd rfl h | _ => rfl
  | txtlen => cases q with | txtlen => exact absurd rfl h | _ => rfl
  | candlen => cases q with | candlen => exact absurd rfl h | _ => rfl
  | ctrLo => cases q with | ctrLo => exact absurd rfl h | ctrHi => exact hiHalf_append _ v | _ => rfl
  | ctrHi => cases q with | ctrHi => exact absurd rfl h | ctrLo => exact loHalf_append v _ | _ => rfl
  | targLo => cases q with | targLo => exact absurd rfl h | targHi => exact hiHalf_append _ v | _ => rfl
  | targHi => cases q with | targHi => exact absurd rfl h | targLo => exact loHalf_append v _ | _ => rfl
  | buf b j =>
    rw [s.writeReg_operandWord j v hop]
    cases q with
    | buf c k => exact s.bufWord_setBufWord_other v (hr b j rfl) (hq c k rfl) h
    | _ => rfl
  | _ => cases hop

/-- Settles O44: the fields an operand write leaves, and the registers of the map read before and after it. -/
theorem operandWriteReadsBack : Obligations.OperandWriteReadsBack := by
  unfold Obligations.OperandWriteReadsBack
  refine ⟨fun s v hb => ?_, fun s off v hb hl h8 => ?_⟩
  · have hw : ∀ off : BitVec 12, off.toNat % 4 = 0 →
        s.perform (.write 32 off v) = { s.writeReg (regAt off.toNat) v with resp := okayWrite } :=
      fun off h => s.perform_write_idle v h hb
    exact ⟨hw 0x014 rfl, hw 0x018 rfl, hw 0x01C rfl, hw 0x03C rfl, hw 0x020 rfl, hw 0x024 rfl, hw 0x028 rfl,
      hw 0x02C rfl⟩
  · have hop : (regAt off.toNat).isOperand = true :=
      isOperand_of_lockedOffset hl fun h => h8 (BitVec.eq_of_toNat_eq h)
    have hres : regAt off.toNat ≠ .reserved := fun h => by rw [h] at hop; cases hop
    rw [s.perform_write_idle v hl.1 hb]
    refine ⟨?_, fun o ho hne => ?_⟩
    · rw [State.regValue_setResp, s.regValue_writeReg_same v hop, definedBits_regAt]
    · rw [State.regValue_setResp]
      exact s.regValue_writeReg_other v hop (inRange_regAt _) (inRange_regAt _)
        fun h => hne (BitVec.eq_of_toNat_eq (regAt_injective ho hl.1 hres h))

/-- Settles O46: the bits of the two words, their writes, and the record that no event but a reset changes. -/
theorem statusAndIeFields : Obligations.StatusAndIeFields := by
  unfold Obligations.StatusAndIeFields
  refine ⟨⟨rfl, rfl, rfl, rfl, rfl, rfl, rfl, rfl⟩, fun s => ⟨?_, s.ieWord_bits, ⟨rfl, rfl⟩, fun v => rfl, fun v => rfl,
    fun e he => ?_⟩⟩
  · obtain ⟨hbusy, hdone, hwin, hdrop⟩ := s.statusWord_flags
    exact ⟨hbusy, hdone, hwin, hdrop, s.statusWord_fields⟩
  · have hk := s.perform_keepsRecord he
    exact ⟨hk.err, hk.lastop⟩

/-- A read of word j of a buffer returns its four bytes, lowest lane first (R110). -/
theorem State.perform_read_bufWord (s : State) {b : Buffer} {j : Nat} (h : 4 * j < bufSize b) :
    (s.perform (.read 32 (BitVec.ofNat 12 (bufBase b + 4 * j)))).resp = okayRead (s.bufWord b j) := by
  have hbound : bufBase b + bufSize b ≤ 2 ^ 12 := by cases b <;> decide
  have hoff : (BitVec.ofNat 12 (bufBase b + 4 * j)).toNat = bufBase b + 4 * j := Nat.mod_eq_of_lt (by omega)
  have := bufBase_bufSize_aligned b
  rw [s.perform_read_resp (by omega), hoff, regAt_bufWord h]
  rfl

/-- Settles O47: the fields and bytes no event but a reset changes, and the value of each output at a read. -/
theorem outputsOnlyAtCompletion : Obligations.OutputsOnlyAtCompletion := by
  unfold Obligations.OutputsOnlyAtCompletion
  refine ⟨fun s e he => ?_, fun s => ?_⟩
  · have hk := s.perform_keepsRecord he
    exact ⟨hk.ctrOut, hk.rem, hk.trunc, hk.code, hk.cdig, hk.vmatch, fun b hb i hi => s.perform_outputByte he hb hi⟩
  · have hread : ∀ off : BitVec 12, off.toNat % 4 = 0 →
        (s.perform (.read 32 off)).resp = okayRead (s.regValue (regAt off.toNat)) := fun off h => s.perform_read_resp h
    refine ⟨hread 0x008 rfl, ⟨_, _, hread 0x048 rfl, hread 0x04C rfl, (hiHalf_append_loHalf _).symm⟩, ?_, ?_, ?_,
      ⟨_, hread 0x064 rfl, s.resultWord_fields⟩, fun j hj => ?_, fun j hj => ?_⟩
    · exact (hread 0x050 rfl).trans (congrArg okayRead (BitVec.setWidth_eq_append (by decide)))
    · exact (hread 0x054 rfl).trans (congrArg okayRead (BitVec.setWidth_eq_append (by decide)))
    · exact (hread 0x058 rfl).trans (congrArg okayRead (BitVec.setWidth_eq_append (by decide)))
    · exact s.perform_read_bufWord (b := .codea) (show 4 * j < 8 by omega)
    · exact s.perform_read_bufWord (b := .digest) (show 4 * j < 20 by omega)

/-- Settles O38: each entry of the map and each buffer word at its offset. -/
theorem registerMap : Obligations.RegisterMap := by
  unfold Obligations.RegisterMap
  refine ⟨fun e he => regAt_of_mem_regMap he, rfl, fun j hj => ⟨?_, ?_⟩, fun j hj => ?_, fun j hj => ⟨?_, ?_⟩,
    fun j hj => ?_, fun s => ⟨rfl, rfl⟩⟩
  · exact regAt_bufWord (b := .cand) (show 4 * j < 8 by omega)
  · exact regAt_bufWord (b := .codea) (show 4 * j < 8 by omega)
  · exact regAt_bufWord (b := .digest) (show 4 * j < 20 by omega)
  · exact regAt_bufWord (b := .key) (show 4 * j < 64 by omega)
  · exact regAt_bufWord (b := .msg) (show 4 * j < 64 by omega)
  · exact regAt_bufWord (b := .txt) (show 4 * j < 128 by omega)

end Sys2Proof.Machine
end

section
/-! PROOFS. Noninterference: a command's result depends on its word, the operands and S_TIME alone. -/

namespace Sys2Proof.Machine

/-! ### Two runs of one command (R66) -/

/-- Two runs, from `s` to `u` and from `t` to `v`: the same operands at the end, and every output written alike or kept
alike (R66). -/
structure EndsAlike (s t u v : State) : Prop where
  operands : sameOperands u v
  ctrOut : sameOrKept State.ctrOut s t u v
  rem : sameOrKept State.rem s t u v
  trunc : sameOrKept State.trunc s t u v
  code : sameOrKept State.code s t u v
  cdig : sameOrKept State.cdig s t u v
  vmatch : sameOrKept State.vmatch s t u v
  bytes : ∀ b, sameOrKept (fun x => x.bytes b (bufSize b)) s t u v

/-- One pair of writes after another. -/
theorem sameOrKept_trans {α : Type} {f : State → α} {s t u v u' v' : State} (h : sameOrKept f s t u v)
    (h' : sameOrKept f u v u' v') : sameOrKept f s t u' v' := by
  rcases h' with h' | ⟨hu, hv⟩
  · exact .inl h'
  · rcases h with h | ⟨hs, ht⟩
    · exact .inl (by rw [hu, hv, h])
    · exact .inr ⟨hu.trans hs, hv.trans ht⟩

/-- The same list written to one buffer: that buffer reads alike, and every other as before. -/
theorem sameBuffer_setBuf {s t : State} {b : Buffer} (c : Buffer) (bs : List Byte) (h : sameBuffer b s t) :
    sameBuffer b (s.setBuf c bs) (t.setBuf c bs) := by
  intro i hi
  by_cases hcb : c = b
  · subst hcb
    rw [s.byte_setBuf_same c bs hi, t.byte_setBuf_same c bs hi]
  · rw [s.byte_setBuf_other bs hcb hi, t.byte_setBuf_other bs hcb hi]
    exact h i hi

theorem sameOrKept_bytes_setBuf (s t : State) (b c : Buffer) (bs : List Byte) :
    sameOrKept (fun x => x.bytes b (bufSize b)) s t (s.setBuf c bs) (t.setBuf c bs) := by
  by_cases hcb : c = b
  · subst hcb
    exact .inl (State.bytes_congr fun i hi => by rw [t.byte_setBuf_same c bs hi, s.byte_setBuf_same c bs hi])
  · exact .inr ⟨s.bytes_setBuf_other bs hcb (le_refl _), t.bytes_setBuf_other bs hcb (le_refl _)⟩

/-! ### The operand forms depend on the operands alone -/

section
variable {s t : State} (h : sameOperands s t)
include h

theorem keylen_congr : t.keylen = s.keylen := by
  obtain ⟨hk, -⟩ := h
  exact hk

theorem msglen_congr : t.msglen = s.msglen := by
  obtain ⟨-, hm, -⟩ := h
  exact hm

theorem txtlen_congr : t.txtlen = s.txtlen := by
  obtain ⟨-, -, ht, -⟩ := h
  exact ht

theorem candlen_congr : t.candlen = s.candlen := by
  obtain ⟨-, -, -, hc, -⟩ := h
  exact hc

theorem ctr_congr : t.ctr = s.ctr := by
  obtain ⟨-, -, -, -, hc, -⟩ := h
  exact hc

theorem operandBytes_congr {b : Buffer} (hb : bufIsOperand b = true) {n : Nat} (hn : n ≤ bufSize b) :
    t.bytes b n = s.bytes b n := by
  obtain ⟨-, -, -, -, -, -, hbuf⟩ := h
  exact State.bytes_congr fun i hi => hbuf b hb i (lt_of_lt_of_le hi hn)

theorem keyTooLong_congr : t.keyTooLong = s.keyTooLong := by
  rw [State.keyTooLong, keylen_congr h, State.keyTooLong]

theorem msgTooLong_congr : t.msgTooLong = s.msgTooLong := by
  rw [State.msgTooLong, msglen_congr h, State.msgTooLong]

theorem txtTooLong_congr : t.txtTooLong = s.txtTooLong := by
  rw [State.txtTooLong, txtlen_congr h, State.txtTooLong]

theorem candTooLong_congr : t.candTooLong = s.candTooLong := by
  rw [State.candTooLong, candlen_congr h, State.candTooLong]

theorem sourceTooLong_congr (src : KeySrc) : t.sourceTooLong src = s.sourceTooLong src := by
  cases src with
  | key => exact keyTooLong_congr h
  | txt => exact txtTooLong_congr h

theorem keyBytes_congr (hl : ¬s.keyTooLong = true) : t.keyBytes = s.keyBytes := by
  rw [State.keyBytes, keylen_congr h]
  exact operandBytes_congr h rfl (not_lt.mp fun hlt => hl (decide_eq_true hlt))

theorem msgBytes_congr (hl : ¬s.msgTooLong = true) : t.msgBytes = s.msgBytes := by
  rw [State.msgBytes, msglen_congr h]
  exact operandBytes_congr h rfl (not_lt.mp fun hlt => hl (decide_eq_true hlt))

theorem txtBytes_congr (hl : ¬s.txtTooLong = true) : t.txtBytes = s.txtBytes := by
  rw [State.txtBytes, txtlen_congr h]
  exact operandBytes_congr h rfl (not_lt.mp fun hlt => hl (decide_eq_true hlt))

theorem candBytes_congr (hl : ¬s.candTooLong = true) : t.candBytes = s.candBytes := by
  rw [State.candBytes, candlen_congr h]
  exact operandBytes_congr h rfl (not_lt.mp fun hlt => hl (decide_eq_true hlt))

theorem keyOf_congr {src : KeySrc} (hl : ¬s.sourceTooLong src = true) : t.keyOf src = s.keyOf src := by
  cases src with
  | key => rw [State.keyOf, keyBytes_congr h hl, State.keyOf]
  | txt => rw [State.keyOf, txtBytes_congr h hl, State.keyOf]

/-! ### Each write a command makes ends alike -/

theorem EndsAlike.kept : EndsAlike s t s t :=
  ⟨h, .inr ⟨rfl, rfl⟩, .inr ⟨rfl, rfl⟩, .inr ⟨rfl, rfl⟩, .inr ⟨rfl, rfl⟩, .inr ⟨rfl, rfl⟩, .inr ⟨rfl, rfl⟩,
    fun _ => .inr ⟨rfl, rfl⟩⟩

theorem EndsAlike.setBuf (c : Buffer) (bs : List Byte) : EndsAlike s t (s.setBuf c bs) (t.setBuf c bs) := by
  have hkept := EndsAlike.kept h
  obtain ⟨hk, hm, ht, hc, hctr, htarg, hbuf⟩ := h
  exact { hkept with
    operands := ⟨hk, hm, ht, hc, hctr, htarg, fun b hb => sameBuffer_setBuf c bs (hbuf b hb)⟩
    bytes := fun b => sameOrKept_bytes_setBuf s t b c bs }

theorem EndsAlike.setCode (o : HotpOut) (d : Nat) : EndsAlike s t (s.setCode o d) (t.setCode o d) :=
  have hdigest := EndsAlike.setBuf h .digest o.digest
  have hcodea := EndsAlike.setBuf hdigest.operands .codea o.ascii
  { EndsAlike.kept h with
    operands := hcodea.operands
    trunc := .inl rfl
    code := .inl rfl
    cdig := .inl rfl
    bytes := fun b => sameOrKept_trans (hdigest.bytes b) (hcodea.bytes b) }

theorem EndsAlike.setTotp (hs : t.sTime = s.sTime) (o : HotpOut) (d : Nat) :
    EndsAlike s t (s.setTotp o d) (t.setTotp o d) :=
  { EndsAlike.setCode h o d with
    ctrOut := .inl (by rw [State.setTotp_ctrOut, State.setTotp_ctrOut, hs])
    rem := .inl (by rw [State.setTotp_rem, State.setTotp_rem, hs]) }

theorem EndsAlike.setVerdict (hs : t.sTime = s.sTime) (m : Bool) :
    EndsAlike s t (s.setVerdict m) (t.setVerdict m) :=
  { EndsAlike.kept h with
    ctrOut := .inl (by rw [State.setVerdict_ctrOut, State.setVerdict_ctrOut, hs])
    vmatch := .inl rfl }

theorem EndsAlike.setText (x : List Byte) : EndsAlike s t (s.setText x) (t.setText x) := by
  have hw := EndsAlike.setBuf h .txt x
  obtain ⟨hk, hm, -, hc, hctr, htarg, hbuf⟩ := hw.operands
  exact { hw with operands := ⟨hk, hm, rfl, hc, hctr, htarg, hbuf⟩ }

theorem EndsAlike.setKey (k : List Byte) : EndsAlike s t (s.setKey k) (t.setKey k) := by
  have hw := EndsAlike.setBuf h .key k
  obtain ⟨-, hm, ht, hc, hctr, htarg, hbuf⟩ := hw.operands
  exact { hw with operands := ⟨rfl, hm, ht, hc, hctr, htarg, hbuf⟩ }

theorem EndsAlike.ctrforWrite (hs : t.sTime = s.sTime) :
    EndsAlike s t { s with ctrOut := BitVec.ofNat 64 (counterFor s.sTime) }
      { t with ctrOut := BitVec.ofNat 64 (counterFor t.sTime) } :=
  { EndsAlike.kept h with ctrOut := .inl (by rw [hs]) }

theorem EndsAlike.remsecWrite (hs : t.sTime = s.sTime) :
    EndsAlike s t { s with rem := BitVec.ofNat 5 (remaining s.sTime) }
      { t with rem := BitVec.ofNat 5 (remaining t.sTime) } :=
  { EndsAlike.kept h with rem := .inl (by rw [hs]) }

end

theorem EndsAlike.zeroed (s t : State) : EndsAlike s t s.zeroed t.zeroed := by
  have hbyte : ∀ b, sameBuffer b s.zeroed t.zeroed := fun b i hi => by rw [t.byte_zeroed hi, s.byte_zeroed hi]
  exact ⟨⟨rfl, rfl, rfl, rfl, rfl, rfl, fun b _ => hbyte b⟩, .inl rfl, .inl rfl, .inl rfl, .inl rfl, .inl rfl,
    .inl rfl, fun b => .inl (State.bytes_congr (hbyte b))⟩

/-! ### Each result function answers alike -/

/-- Two answers of one result function: the same error, or writes that end alike. -/
inductive AnswersAlike (s t : State) : Result → Result → Prop
  | error (e : ErrCode) : AnswersAlike s t (.error e) (.error e)
  | ok {u v : State} (h : EndsAlike s t u v) : AnswersAlike s t (.ok u) (.ok v)

section
variable {s t : State} (h : sameOperands s t)
include h

theorem sha1Result_alike : AnswersAlike s t (sha1Result s) (sha1Result t) := by
  rw [sha1Result, sha1Result, msgTooLong_congr h]
  split
  · exact .error _
  · next hm =>
    rw [msgBytes_congr h hm]
    exact .ok (.setBuf h _ _)

theorem hmacResult_alike : AnswersAlike s t (hmacResult s) (hmacResult t) := by
  rw [hmacResult, hmacResult, keyTooLong_congr h, msgTooLong_congr h, keylen_congr h]
  split
  · exact .error _
  · next hl =>
    rw [Bool.or_eq_true, not_or] at hl
    rw [keyBytes_congr h hl.1, msgBytes_congr h hl.2]
    split
    · exact .error _
    · exact .ok (.setBuf h _ _)

theorem hotpResult_alike (f : Nat) : AnswersAlike s t (hotpResult f s) (hotpResult f t) := by
  rw [hotpResult, hotpResult, keyTooLong_congr h, keylen_congr h, ctr_congr h]
  split
  · exact .error _
  · next hk =>
    rw [keyBytes_congr h hk]
    split
    · exact .error _
    · cases digitsOf f with
      | none => exact .error _
      | some d => exact .ok (.setCode h _ d)

theorem totpResult_alike (hs : t.sTime = s.sTime) (f : Nat) (src : KeySrc) :
    AnswersAlike s t (totpResult f src s) (totpResult f src t) := by
  rw [totpResult, totpResult, sourceTooLong_congr h, hs]
  split
  · exact .error _
  · next hl =>
    rw [keyOf_congr h hl]
    cases s.keyOf src with
    | error e => exact .error e
    | ok k =>
      dsimp only
      split
      · exact .error _
      · cases digitsOf f with
        | none => exact .error _
        | some d => exact .ok (.setTotp h hs _ d)

theorem verifyResult_alike (hs : t.sTime = s.sTime) (f w : Nat) (src : KeySrc) :
    AnswersAlike s t (verifyResult f src w s) (verifyResult f src w t) := by
  rw [verifyResult, verifyResult, sourceTooLong_congr h, candTooLong_congr h, hs]
  split
  · exact .error _
  · next hl =>
    rw [Bool.or_eq_true, not_or] at hl
    rw [keyOf_congr h hl.1, candBytes_congr h hl.2]
    cases s.keyOf src with
    | error e => exact .error e
    | ok k =>
      dsimp only
      split
      · exact .error _
      · cases digitsOf f with
        | none => exact .error _
        | some d => exact .ok (.setVerdict h hs _)

theorem b32encResult_alike : AnswersAlike s t (b32encResult s) (b32encResult t) := by
  rw [b32encResult, b32encResult, keyTooLong_congr h]
  split
  · exact .error _
  · next hk =>
    rw [keyBytes_congr h hk]
    exact .ok (.setText h _)

theorem b32decResult_alike : AnswersAlike s t (b32decResult s) (b32decResult t) := by
  rw [b32decResult, b32decResult, txtTooLong_congr h]
  split
  · exact .error _
  · next ht =>
    rw [txtBytes_congr h ht]
    cases b32decode s.txtBytes with
    | none => exact .error _
    | some r =>
      dsimp only
      split
      · exact .error _
      · exact .ok (.setKey h r)

/-- Every command, from states with the same operands and S_TIME. -/
theorem resultOf_alike (hs : t.sTime = s.sTime) (i : Instr) : AnswersAlike s t (resultOf i s) (resultOf i t) := by
  cases i with
  | sha1 => exact sha1Result_alike h
  | hmac => exact hmacResult_alike h
  | hotp f => exact hotpResult_alike h f
  | totp f _ src => exact totpResult_alike h hs f src
  | verify f _ src w => exact verifyResult_alike h hs f w src
  | b32enc => exact b32encResult_alike h
  | b32dec => exact b32decResult_alike h
  | ctrfor _ => exact .ok (.ctrforWrite h hs)
  | remsec _ => exact .ok (.remsecWrite h hs)
  | zero => exact .ok (.zeroed s t)
  | nop => exact .ok (.kept h)

end

/-- The record of a completion is made on either side, with one error code. -/
theorem EndsAlike.finish {s t u v : State} (h : EndsAlike s t u v) (e : ErrCode) :
    EndsAlike s t (u.finish e) (v.finish e) := { h with }

/-- Two completions of one command, from states with the same operands and S_TIME. -/
theorem exec_endsAlike {i : Instr} {s t u v : State} (h : sameOperands s t) (hs : t.sTime = s.sTime)
    (hu : exec i s = .next u) (hv : exec i t = .next v) : v.err = u.err ∧ EndsAlike s t u v := by
  have ha := resultOf_alike h hs i
  rw [exec_eq_commit] at hu hv
  generalize resultOf i s = p at ha hu
  generalize resultOf i t = q at ha hv
  cases hu
  cases hv
  cases ha with
  | error e => exact ⟨rfl, (EndsAlike.kept h).finish e⟩
  | ok hw => exact ⟨rfl, hw.finish .ok⟩

/-- Settles O55: each result function reads the operands and S_TIME alone, and each write ends alike. -/
theorem resultDependsOnOperands : Obligations.ResultDependsOnOperands := by
  intro i s t u v h hs hu hv
  obtain ⟨herr, ha⟩ := exec_endsAlike h hs hu hv
  exact ⟨herr, ha.operands, ha.ctrOut, ha.rem, ha.trunc, ha.code, ha.cdig, ha.vmatch, ha.bytes⟩

end Sys2Proof.Machine
end

section
/-! PROOFS. Each access by what stands at its offset: reads, dropped, ignored and unsupported accesses, and the steps. -/

namespace Sys2Proof.Machine

/-! ### Steps (R114) -/

/-- The oldest event to come, when it is no completion, is performed. -/
theorem step_of_event {s : State} {e : Event} {es : List Event} (h : s.inputs = e :: es) (he : e ≠ .complete) :
    step s = .next (State.perform { s with inputs := es } e) := by
  rw [step, h]
  cases e with
  | complete => exact absurd rfl he
  | _ => rfl

/-- A completion has no effect while BUSY = 0. -/
theorem step_complete_idle {s : State} {es : List Event} (h : s.inputs = .complete :: es) (hb : s.busy = false) :
    step s = .next { s with inputs := es } := by
  rw [step, h]
  exact if_neg (by rw [hb]; exact Bool.false_ne_true)

/-- An idle block with no event to come stays. -/
theorem step_idle {s : State} (h : s.inputs = []) (hb : s.busy = false) : step s = .next s := by
  rw [step, h]
  exact if_neg (by rw [hb]; exact Bool.false_ne_true)

/-- Settles O9: one equation of `step` per clause. -/
theorem stepTakesOldestEvent : Obligations.StepTakesOldestEvent := by
  unfold Obligations.StepTakesOldestEvent
  exact fun s => ⟨fun e es => step_of_event, fun es => step_complete_idle, step_idle⟩

/-! ### Unsupported accesses (R103) -/

theorem supported_iff {bits : Nat} {off : BitVec 12} : supported bits off = true ↔ bits = 32 ∧ off.toNat % 4 = 0 :=
  decide_eq_true_iff

/-- An unsupported read changes the response alone. -/
theorem State.perform_read_unsupported (s : State) {bits : Nat} {off : BitVec 12} (h : ¬supported bits off = true) :
    s.perform (.read bits off) = { s with resp := some { status := .error, data := some 0 } } := if_neg h

/-- An unsupported write changes the response alone. -/
theorem State.perform_write_unsupported (s : State) {bits : Nat} {off : BitVec 12} (v : Word)
    (h : ¬supported bits off = true) :
    s.perform (.write bits off v) = { s with resp := some { status := .error, data := none } } := if_neg h

/-- Settles O39: a wrong size or a misaligned offset is what makes an access unsupported. -/
theorem unsupportedAccesses : Obligations.UnsupportedAccesses := by
  unfold Obligations.UnsupportedAccesses
  intro s bits off v h
  have hs : ¬supported bits off = true := by
    rw [supported_iff]
    exact fun ⟨hbits, halign⟩ => h.elim (· hbits) (· halign)
  exact ⟨s.perform_read_unsupported hs, s.perform_write_unsupported v hs⟩

/-! ### Reads (R101, R102) -/

/-- A supported read: the register's value, and its side effect. -/
theorem State.perform_read (s : State) {off : BitVec 12} (h : off.toNat % 4 = 0) :
    s.perform (.read 32 off) =
      { s.afterRead (regAt off.toNat) with resp := okayRead (s.regValue (regAt off.toNat)) } :=
  if_pos (supported_iff.mpr ⟨rfl, h⟩)

/-- TIME_LO stands at 0x030 alone. -/
theorem regAt_ne_timeLo {off : BitVec 12} (h : off ≠ 0x030) : regAt off.toNat ≠ .timeLo := fun hr => by
  have hm : off.toNat = 0x030 := by simpa [regMap] using mem_regMap_of_regAt hr
  exact h (BitVec.eq_of_toNat_eq hm)

/-- A read of any register but TIME_LO has no side effect. -/
theorem State.afterRead_of_ne (s : State) {r : Reg} (h : r ≠ .timeLo) : s.afterRead r = s := if_neg h

/-- The side effect of a read does not show in the register read. -/
theorem State.regValue_afterRead_same (s : State) (r : Reg) : (s.afterRead r).regValue r = s.regValue r := by
  by_cases h : r = .timeLo
  · subst h
    rfl
  · rw [s.afterRead_of_ne h]

/-- Settles O40: the supported read, its side effect at TIME_LO, and the same register read again. -/
theorem readsReturnAndLatch : Obligations.ReadsReturnAndLatch := by
  unfold Obligations.ReadsReturnAndLatch
  intro s off h
  refine ⟨fun hne => ?_, s.perform_read (off := 0x030) rfl, ?_⟩
  · rw [s.perform_read h, s.afterRead_of_ne (regAt_ne_timeLo hne)]
  · rw [State.perform_read_resp _ h, State.perform_read_resp _ h, s.perform_read h, State.regValue_setResp,
      State.regValue_afterRead_same]

/-! ### Writes that are dropped, and writes that are not (R106) -/

/-- A supported write of a register that is not locked is made, BUSY or not. -/
theorem State.perform_write_unlocked (s : State) {off : BitVec 12} (v : Word) (h : off.toNat % 4 = 0)
    (hl : (regAt off.toNat).isLocked = false) :
    s.perform (.write 32 off v) = { s.writeReg (regAt off.toNat) v with resp := okayWrite } := by
  have hn : ¬((regAt off.toNat).isLocked && s.busy) = true := by simp [hl]
  rw [State.perform, State.busWrite, if_pos (supported_iff.mpr ⟨rfl, h⟩), State.busWriteReg, if_neg hn]
  rfl

/-- A supported write of a locked register while BUSY = 1 sets DROP and does nothing else. -/
theorem State.perform_write_dropped (s : State) {off : BitVec 12} (v : Word) (h : off.toNat % 4 = 0)
    (hl : (regAt off.toNat).isLocked = true) (hb : s.busy = true) :
    s.perform (.write 32 off v) = { s.dropWrite with resp := okayWrite } := by
  have hd : ((regAt off.toNat).isLocked && s.busy) = true := by simp [hl, hb]
  rw [State.perform, State.busWrite, if_pos (supported_iff.mpr ⟨rfl, h⟩), State.busWriteReg, if_pos hd]
  rfl

/-- CMD and the operand registers, at their offsets, are locked (R33, R106). -/
theorem isLocked_of_lockedOffset {off : Nat} (h : lockedOffset off) : (regAt off).isLocked = true := by
  by_cases h8 : off = 0x008
  · subst h8
    rfl
  · simp [Reg.isLocked, isOperand_of_lockedOffset h h8]

/-- A write of a word of an output buffer changes nothing (R59, R61, R105). -/
theorem State.writeReg_outputWord (s : State) {b : Buffer} (j : Nat) (v : Word) (h : bufIsOperand b = false) :
    s.writeReg (.buf b j) v = s := if_neg (by rw [h]; exact Bool.false_ne_true)

/-- No register write sets DROP. -/
theorem State.drop_of_drop_writeReg {s : State} {r : Reg} {v : Word} (h : (s.writeReg r v).drop = true) :
    s.drop = true := by
  cases r with
  | status => exact (Bool.and_eq_true_iff.mp h).1
  | buf b j =>
    cases hb : bufIsOperand b with
    | true => rwa [s.writeReg_operandWord j v hb] at h
    | false => rwa [s.writeReg_outputWord j v hb] at h
  | _ => exact h

/-- Settles O42: locked writes while BUSY, the four registers never locked, and DROP while BUSY = 0. -/
theorem lockedWritesDropped : Obligations.LockedWritesDropped := by
  unfold Obligations.LockedWritesDropped
  refine ⟨fun s off v hb hl => s.perform_write_dropped v hl.1 (isLocked_of_lockedOffset hl) hb, fun s v => ?_,
    fun s bits off v hb hd => ?_⟩
  · exact ⟨s.perform_write_unlocked (off := 0x00C) v rfl rfl, s.perform_write_unlocked (off := 0x010) v rfl rfl,
      s.perform_write_unlocked (off := 0x030) v rfl rfl, s.perform_write_unlocked (off := 0x034) v rfl rfl⟩
  · by_cases hs : supported bits off = true
    · obtain ⟨rfl, halign⟩ := supported_iff.mp hs
      rw [s.perform_write_idle v halign hb] at hd
      exact State.drop_of_drop_writeReg hd
    · rwa [s.perform_write_unsupported v hs] at hd

/-! ### Writes that are ignored (R105, R108) -/

/-- The read-only registers and the reserved offsets. -/
def Reg.ignoresWrites (r : Reg) : Bool :=
  r.isOutput || r == .id || r == .param || r == .nowRem || r == .reserved

/-- Among the buffer words they are those of the output buffers. -/
theorem ignoresWrites_buf (b : Buffer) (j : Nat) : (Reg.buf b j).ignoresWrites = !bufIsOperand b := by
  cases b <;> rfl

/-- A running command locks none of them. -/
theorem isLocked_of_ignoresWrites {r : Reg} (h : r.ignoresWrites = true) : r.isLocked = false := by
  cases r with
  | id | param | nowRem | ctrOutLo | ctrOutHi | rem | trunc | code | result | reserved => rfl
  | buf b j => exact (Bool.not_eq_true' _).mp (ignoresWrites_buf b j ▸ h)
  | _ => cases h

/-- A write of one of them changes nothing. -/
theorem State.writeReg_of_ignoresWrites (s : State) {r : Reg} (v : Word) (h : r.ignoresWrites = true) :
    s.writeReg r v = s := by
  cases r with
  | id | param | nowRem | ctrOutLo | ctrOutHi | rem | trunc | code | result | reserved => rfl
  | buf b j => exact s.writeReg_outputWord j v ((Bool.not_eq_true' _).mp (ignoresWrites_buf b j ▸ h))
  | _ => cases h

/-- A supported write of one of them gets OKAY and changes nothing, BUSY or not. -/
theorem State.perform_write_ignored (s : State) {off : BitVec 12} (v : Word) (h : off.toNat % 4 = 0)
    (hr : (regAt off.toNat).ignoresWrites = true) :
    s.perform (.write 32 off v) = { s with resp := okayWrite } := by
  rw [s.perform_write_unlocked v h (isLocked_of_ignoresWrites hr), s.writeReg_of_ignoresWrites v hr]

/-- Settles O41: each listed offset holds a register that ignores writes, and a write of STATUS clears flags alone. -/
theorem readOnlyWritesIgnored : Obligations.ReadOnlyWritesIgnored := by
  unfold Obligations.ReadOnlyWritesIgnored
  refine fun s v => ⟨fun off hoff => ?_, ?_⟩
  · simp only [List.mem_cons, List.not_mem_nil, or_false] at hoff
    obtain rfl | rfl | rfl | rfl | rfl | rfl | rfl | rfl | rfl | rfl | rfl | rfl | rfl | rfl | rfl | rfl := hoff
    all_goals exact s.perform_write_ignored v rfl rfl
  · rw [s.perform_write_unlocked (off := 0x00C) v rfl rfl]
    rfl

/-- No register stands at a reserved offset. -/
theorem regAt_of_reservedOffset {off : Nat} (h : reservedOffset off) : regAt off = .reserved := by
  obtain ⟨-, hrange⟩ := h
  rcases regAt_cases off with hm | ⟨b, hb, -⟩ | hr
  · have key : ∀ e ∈ regMap, e.1 ≤ 0x064 := by decide
    have hle : off ≤ 0x064 := key _ hm
    omega
  · have key : ∀ c, bufBase c + bufSize c ≤ 0x068 ∨ (0x080 ≤ bufBase c ∧ bufBase c + bufSize c ≤ 0x094) ∨
        (0x100 ≤ bufBase c ∧ bufBase c + bufSize c ≤ 0x200) := fun c => by cases c <;> decide
    have hplace := key b
    simp only [inBuffer, decide_eq_true_eq] at hb
    omega
  · exact hr

/-- Settles O43: a reserved offset reads 0 with no side effect, and ignores writes. -/
theorem reservedOffsets : Obligations.ReservedOffsets := by
  unfold Obligations.ReservedOffsets
  intro s off v h
  have hr := regAt_of_reservedOffset h
  refine ⟨?_, s.perform_write_ignored v h.1 (by rw [hr]; rfl)⟩
  rw [s.perform_read h.1, hr]
  rfl

end Sys2Proof.Machine
end

section
/-! PROOFS. The lanes of a buffer word, and the words of a buffer written by the bus (R110). -/

namespace Sys2Proof.Machine

/-! ### Bytes and lanes (R10, R110) -/

theorem State.length_bytes (s : State) (b : Buffer) (n : Nat) : (s.bytes b n).length = n := by
  simp [State.bytes]

theorem State.getD_bytes (s : State) (b : Buffer) {n i : Nat} (h : i < n) : (s.bytes b n).getD i 0 = s.byte b i := by
  simp [State.bytes, h]

/-- Lane k of a word. -/
theorem lanes_getD (v : Word) {k : Nat} (h : k < 4) : (lanes v).getD k 0 = v.extractLsb' (8 * k) 8 := by
  obtain rfl | rfl | rfl | rfl : k = 0 ∨ k = 1 ∨ k = 2 ∨ k = 3 := by omega
  all_goals rfl

/-- A word put together from four bytes has them as its lanes. -/
theorem lanes_le32 (b0 b1 b2 b3 : Byte) : lanes (le32 b0 b1 b2 b3) = [b0, b1, b2, b3] := by
  simp (disch := decide) only [lanes, le32, BitVec.extractLsb'_append_eq_of_le, BitVec.extractLsb'_append_eq_right,
    BitVec.extractLsb'_eq_self, Nat.reduceSub]

/-- Lane k of a buffer word is its byte k. -/
theorem State.bufWord_lane (s : State) (b : Buffer) (j : Nat) {k : Nat} (h : k < 4) :
    (s.bufWord b j).extractLsb' (8 * k) 8 = s.byte b (4 * j + k) := by
  rw [← lanes_getD _ h, State.bufWord, lanes_le32]
  obtain rfl | rfl | rfl | rfl : k = 0 ∨ k = 1 ∨ k = 2 ∨ k = 3 := by omega
  all_goals rfl

/-- The place of a buffer word in the map fits the 12 bits of a bus offset (R100). -/
theorem toNat_bufWordOffset {b : Buffer} {j : Nat} (h : 4 * j < bufSize b) :
    (BitVec.ofNat 12 (bufBase b + 4 * j)).toNat = bufBase b + 4 * j := by
  have hbound : bufBase b + bufSize b ≤ 2 ^ 12 := by cases b <;> decide
  exact Nat.mod_eq_of_lt (by omega)

/-- A write of a word of an operand buffer while BUSY = 0 (R54, R62 to R64). -/
theorem State.perform_write_bufWord (s : State) {b : Buffer} {j : Nat} (v : Word) (hb : s.busy = false)
    (hop : bufIsOperand b = true) (h : 4 * j < bufSize b) :
    s.perform (.write 32 (BitVec.ofNat 12 (bufBase b + 4 * j)) v) = { s.setBufWord b j v with resp := okayWrite } := by
  have hoff := toNat_bufWordOffset h
  have haligned := bufBase_bufSize_aligned b
  rw [s.perform_write_idle v (by omega) hb, hoff, regAt_bufWord h, s.writeReg_operandWord j v hop]

/-- The first four bytes of a buffer after its word 0 was written. -/
theorem State.bytes_setBufWord_zero (s : State) (b : Buffer) (v : Word) : (s.setBufWord b 0 v).bytes b 4 = lanes v := by
  have hbyte : ∀ i < 4, (s.setBufWord b 0 v).byte b i = (lanes v).getD i 0 := fun i hi => by
    have := s.byte_setBufWord_same b 0 v hi
    rwa [Nat.mul_zero, Nat.zero_add] at this
  exact List.map_congr_left fun i hi => hbyte i (List.mem_range.mp hi)

/-- Settles O45: the map's entries, the bytes of a string, the lanes of a word, and a word written. -/
theorem bufferByteLanes : Obligations.BufferByteLanes := by
  unfold Obligations.BufferByteLanes
  refine ⟨rfl, fun s b n => ⟨s.length_bytes b n, fun i => s.getD_bytes b⟩, fun s b i hi => ?_,
    fun s b j v hb hop hj => ⟨fun k hk => ?_, fun a ha => ?_⟩, fun s hb => ?_⟩
  · have hbyte := s.bufWord_lane b (i / 4) (Nat.mod_lt i (by decide))
    rw [Nat.div_add_mod] at hbyte
    rw [regAt_bufWord (by omega)]
    exact hbyte.symm
  · rw [s.perform_write_bufWord v hb hop hj, ← lanes_getD v hk]
    exact s.byte_setBufWord_same b j v hk
  · rw [s.perform_write_bufWord v hb hop hj]
    exact (s.read_setBufWord b j v a).trans (if_neg (by omega))
  · have hw := s.perform_write_bufWord (b := .key) (j := 0) 0x34333231 hb rfl (by decide)
    exact (congrArg (State.bytes · .key 4) hw).trans (s.bytes_setBufWord_zero .key 0x34333231)

end Sys2Proof.Machine
end

section
/-! PROOFS. Isolation of a command in flight (R119). -/

namespace Sys2Proof.Machine

/-! ### What an event leaves of the command (R106, R119) -/

/-- The command in flight is the same: BUSY, the latched word, the sampled time and the operands. -/
structure State.KeepsCommand (s t : State) : Prop where
  busy : t.busy = s.busy
  cmdLatch : t.cmdLatch = s.cmdLatch
  sTime : t.sTime = s.sTime
  operands : sameOperands s t

/-- States that differ in no field the command reads hold the same command; for an update of other fields every
hypothesis is `rfl`. -/
theorem State.KeepsCommand.of_eq {s t : State} (hbusy : t.busy = s.busy := by rfl)
    (hlatch : t.cmdLatch = s.cmdLatch := by rfl) (htime : t.sTime = s.sTime := by rfl)
    (hkey : t.keylen = s.keylen := by rfl) (hmsg : t.msglen = s.msglen := by rfl)
    (htxt : t.txtlen = s.txtlen := by rfl) (hcand : t.candlen = s.candlen := by rfl) (hctr : t.ctr = s.ctr := by rfl)
    (htarg : t.targ = s.targ := by rfl) (hmem : t.mem = s.mem := by rfl) : s.KeepsCommand t :=
  ⟨hbusy, hlatch, htime, hkey, hmsg, htxt, hcand, hctr, htarg, fun b _ i _ => State.byte_congr hmem b i⟩

/-- A write of a register that is not locked leaves the command. -/
theorem State.writeReg_keepsCommand (s : State) {r : Reg} (v : Word) (h : r.isLocked = false) :
    s.KeepsCommand (s.writeReg r v) := by
  cases r with
  | buf b j =>
    rw [s.writeReg_outputWord j v h]
    exact .of_eq
  | cmd | keylen | msglen | txtlen | ctrLo | ctrHi | targLo | targHi | candlen => cases h
  | _ => exact .of_eq

/-- No bus write while BUSY = 1 changes the command: it is unsupported, dropped, or of a register that is not locked. -/
theorem State.perform_write_keepsCommand (s : State) (bits : Nat) (off : BitVec 12) (v : Word) (hb : s.busy = true) :
    s.KeepsCommand (s.perform (.write bits off v)) := by
  by_cases hs : supported bits off = true
  · obtain ⟨rfl, halign⟩ := supported_iff.mp hs
    cases hl : (regAt off.toNat).isLocked with
    | true =>
      rw [s.perform_write_dropped v halign hl hb]
      exact .of_eq
    | false =>
      rw [s.perform_write_unlocked v halign hl]
      exact { s.writeReg_keepsCommand v hl with }
  · rw [s.perform_write_unsupported v hs]
    exact .of_eq

/-- No event but a reset changes the command in flight. -/
theorem State.perform_keepsCommand (s : State) {e : Event} (hb : s.busy = true) (he : e ≠ .reset) :
    s.KeepsCommand (s.perform e) := by
  cases e with
  | read bits off =>
    rw [State.perform, State.busRead_frame]
    exact .of_eq
  | write bits off v => exact s.perform_write_keepsCommand bits off v hb
  | tick => exact .of_eq
  | complete => exact .of_eq
  | reset => exact absurd rfl he

/-! ### What the completion writes (R34, R66, R119) -/

/-- No event but a reset changes an output. -/
theorem State.perform_sameOutputs (s : State) {e : Event} (he : e ≠ .reset) : sameOutputs s (s.perform e) := by
  have hk := s.perform_keepsRecord he
  exact ⟨hk.ctrOut, hk.rem, hk.trunc, hk.code, hk.cdig, hk.vmatch, fun b hb i hi => s.perform_outputByte he hb hi⟩

/-- What is written alike, or kept from equal values, is equal. -/
theorem eq_of_sameOrKept {α : Type} {f : State → α} {s t u v : State} (h : sameOrKept f s t u v) (hst : f t = f s) :
    f v = f u := by
  rcases h with h | ⟨hu, hv⟩
  · exact h
  · rw [hu, hv, hst]

/-- A buffer reads the same byte for byte exactly when its whole string is the same. -/
theorem sameBuffer_iff_bytes {b : Buffer} {s t : State} :
    sameBuffer b s t ↔ t.bytes b (bufSize b) = s.bytes b (bufSize b) := by
  simp [sameBuffer, State.bytes]

/-- Two runs from equal outputs that end alike leave equal outputs. -/
theorem EndsAlike.sameOutputs {s t u v : State} (h : EndsAlike s t u v) (hst : sameOutputs s t) : sameOutputs u v := by
  obtain ⟨hctrOut, hrem, htrunc, hcode, hcdig, hvmatch, hbuf⟩ := hst
  exact ⟨eq_of_sameOrKept h.ctrOut hctrOut, eq_of_sameOrKept h.rem hrem, eq_of_sameOrKept h.trunc htrunc,
    eq_of_sameOrKept h.code hcode, eq_of_sameOrKept h.cdig hcdig, eq_of_sameOrKept h.vmatch hvmatch,
    fun b hb => sameBuffer_iff_bytes.mpr (eq_of_sameOrKept (h.bytes b) (sameBuffer_iff_bytes.mp (hbuf b hb)))⟩

/-- Settles O54: the event keeps the command and the outputs, so the two completions end alike from equal outputs. -/
theorem runningCommandIsolated : Obligations.RunningCommandIsolated := by
  unfold Obligations.RunningCommandIsolated
  intro s e hb he
  have hk := s.perform_keepsCommand hb he
  refine ⟨hk.busy.trans hb, hk.cmdLatch, hk.sTime, hk.operands, fun i u v hu hv => ?_⟩
  obtain ⟨herr, ha⟩ := exec_endsAlike hk.operands hk.sTime hu hv
  exact ⟨herr, ha.sameOutputs (s.perform_sameOutputs he), ha.operands⟩

end Sys2Proof.Machine
end

section
/-! PROOFS. The command word: its fields written and read, the row of a command, and the decoder against the encoder
(R141, R146, R147). -/

namespace Sys2Proof

open Sys2Proof.Laws

/-! ### Fields of a word (R141) -/

/-- TSRC as the bit it is (R143). -/
theorem bit_cmdTsrc (w : Word) : (cmdTsrc w).bit = w.extractLsb' 8 1 := by
  have hbit : ∀ b : BitVec 1, (if b == 1#1 then TimeSrc.arg else .now).bit = b := by decide
  rw [cmdTsrc, BitVec.getLsbD_eq_extractLsb']
  exact hbit _

/-- TXTKEY as the bit it is (R144). -/
theorem bit_cmdTxtkey (w : Word) : (cmdTxtkey w).bit = w.extractLsb' 9 1 := by
  have hbit : ∀ b : BitVec 1, (if b == 1#1 then KeySrc.txt else .key).bit = b := by decide
  rw [cmdTxtkey, BitVec.getLsbD_eq_extractLsb']
  exact hbit _

theorem TimeSrc.bit_injective : Function.Injective TimeSrc.bit :=
  Function.LeftInverse.injective (g := fun b => if b = 1 then .arg else .now) fun t => by cases t <;> rfl

theorem KeySrc.bit_injective : Function.Injective KeySrc.bit :=
  Function.LeftInverse.injective (g := fun b => if b = 1 then .txt else .key) fun k => by cases k <;> rfl

section
variable (op d : Nat) (t : TimeSrc) (k : KeySrc) (n : Nat)

@[simp] theorem cmdOp_packWord : cmdOp (packWord op d t k n) = BitVec.ofNat 4 op :=
  BitVec.extractLsb'_append_eq_right

@[simp] theorem cmdDigits_packWord : cmdDigits (packWord op d t k n) = BitVec.ofNat 4 d := by
  simp (disch := decide) only [cmdDigits, packWord, BitVec.extractLsb'_append_eq_of_le (v := 28) (w := 4), Nat.reduceSub]
  exact BitVec.extractLsb'_append_eq_right

@[simp] theorem cmdTsrc_packWord : cmdTsrc (packWord op d t k n) = t := by
  refine TimeSrc.bit_injective ?_
  rw [bit_cmdTsrc]
  simp (disch := decide) only [packWord, BitVec.extractLsb'_append_eq_of_le (v := 28) (w := 4),
    BitVec.extractLsb'_append_eq_of_le (v := 24) (w := 4), Nat.reduceSub]
  exact BitVec.extractLsb'_append_eq_right

@[simp] theorem cmdTxtkey_packWord : cmdTxtkey (packWord op d t k n) = k := by
  refine KeySrc.bit_injective ?_
  rw [bit_cmdTxtkey]
  simp (disch := decide) only [packWord, BitVec.extractLsb'_append_eq_of_le, Nat.reduceSub]
  exact BitVec.extractLsb'_append_eq_right

@[simp] theorem cmdWindow_packWord : cmdWindow (packWord op d t k n) = BitVec.ofNat 4 n := by
  simp (disch := decide) only [cmdWindow, packWord, BitVec.extractLsb'_append_eq_of_le, Nat.reduceSub]
  exact BitVec.extractLsb'_append_eq_right

end

/-- A word with these fields, its reserved bits 0, is the word packed from them. -/
theorem packWord_eq_of_fields {w : Word} {op d : Nat} {t : TimeSrc} {k : KeySrc} {n : Nat}
    (hop : w.extractLsb' 0 4 = BitVec.ofNat 4 op) (hdigits : w.extractLsb' 4 4 = BitVec.ofNat 4 d)
    (htsrc : w.extractLsb' 8 1 = t.bit) (htxtkey : w.extractLsb' 9 1 = k.bit)
    (hwindow : w.extractLsb' 10 4 = BitVec.ofNat 4 n) (hreserved : w.extractLsb' 14 18 = 0#18) :
    packWord op d t k n = w := by
  rw [packWord, ← hop, ← hdigits, ← htsrc, ← htxtkey, ← hwindow, ← hreserved]
  simp (disch := decide) only [BitVec.extractLsb'_append_extractLsb'_eq_extractLsb', BitVec.extractLsb'_eq_self]

/-! ### The rows of the opcode map (R146, R147) -/

theorem legal_iff_row {w : Word} : legal w = true ↔ ∃ r ∈ opcodeMap, w &&& r.mask = r.value := by
  simp [legal, OpRow.matches]

/-- A field that a mask covers has the bits of the masked value. -/
theorem field_of_masked {w m v : Word} (h : w &&& m = v) {a n : Nat} {x : BitVec n}
    (hx : m.extractLsb' a n = BitVec.allOnes n ∧ v.extractLsb' a n = x) : w.extractLsb' a n = x := by
  obtain ⟨hm, hv⟩ := hx
  rw [← hv, ← h, BitVec.extractLsb'_and, hm, BitVec.and_allOnes]

/-- Every row's mask covers OP. -/
theorem cmdOp_of_row {w : Word} {r : OpRow} (hr : r ∈ opcodeMap) (h : w &&& r.mask = r.value) :
    cmdOp w = cmdOp r.value := by
  have hmask : ∀ r ∈ opcodeMap, r.mask.extractLsb' 0 4 = BitVec.allOnes 4 := by decide
  exact field_of_masked h ⟨hmask r hr, rfl⟩

/-- No two rows have the same OP. -/
theorem nodup_rowOps : (opcodeMap.map fun r => cmdOp r.value).Nodup := by decide

theorem row_unique {r q : OpRow} (hr : r ∈ opcodeMap) (hq : q ∈ opcodeMap) (h : cmdOp r.value = cmdOp q.value) :
    r = q :=
  List.inj_on_of_nodup_map nodup_rowOps hr hq h

/-- A word with a row's OP is legal exactly when that row matches it. -/
theorem legal_iff_of_op {w : Word} {r : OpRow} (hr : r ∈ opcodeMap) (h : cmdOp w = cmdOp r.value) :
    legal w = true ↔ w &&& r.mask = r.value := by
  refine legal_iff_row.trans ⟨fun ⟨q, hq, hw⟩ => ?_, fun hw => ⟨r, hr, hw⟩⟩
  rwa [row_unique hr hq (h.symm.trans (cmdOp_of_row hq hw))]

/-- At most one row matches a word. -/
theorem length_matching_rows_le (w : Word) : (opcodeMap.filter fun r => r.matches w).length ≤ 1 := by
  have hsame : ∀ op ∈ (opcodeMap.filter fun r => r.matches w).map (fun r => cmdOp r.value), op = cmdOp w := by
    intro op hop
    obtain ⟨r, hr, rfl⟩ := List.mem_map.mp hop
    obtain ⟨hmem, hmatch⟩ := List.mem_filter.mp hr
    exact (cmdOp_of_row hmem (beq_iff_eq.mp hmatch)).symm
  have hnodup := nodup_rowOps.sublist ((List.filter_sublist (p := fun r => r.matches w)).map _)
  rw [List.eq_replicate_of_mem hsame, List.nodup_replicate, List.length_map] at hnodup
  exact hnodup

/-! ### The decoder (R146, R147, R148) -/

/-- The OPs of no command (R148). -/
def reservedOps : List (BitVec 4) := [0x0, 0xB, 0xC, 0xD, 0xE]

theorem not_legal_of_reservedOp {w : Word} (h : cmdOp w ∈ reservedOps) : legal w = false := by
  have hrows : ∀ r ∈ opcodeMap, cmdOp r.value ∉ reservedOps := by decide
  refine Bool.eq_false_iff.mpr fun hl => ?_
  obtain ⟨r, hr, hw⟩ := legal_iff_row.mp hl
  exact hrows r hr (cmdOp_of_row hr hw ▸ h)

/-- Every other OP names a command. -/
theorem commandOf_of_not_reservedOp {w : Word} (h : cmdOp w ∉ reservedOps) : ∃ i, commandOf w = .ok i := by
  have hops : ∀ op : BitVec 4, op ∉ reservedOps → op.toNat ∈ [1, 2, 3, 4, 5, 6, 7, 8, 9, 10, 15] := by decide
  have hop := hops _ h
  simp only [List.mem_cons, List.not_mem_nil, or_false] at hop
  obtain hop | hop | hop | hop | hop | hop | hop | hop | hop | hop | hop := hop
  all_goals
    unfold commandOf
    rw [hop]
    exact ⟨_, rfl⟩

/-- The decoder gives the command OP names where the word is legal. -/
theorem decode_eq_ok_iff {w : Word} {i : Instr} : decode w = .ok i ↔ commandOf w = .ok i ∧ legal w = true := by
  unfold decode
  cases commandOf w with
  | ok j => by_cases hl : legal w = true <;> simp [hl]
  | error e => simp

theorem legal_iff_decode {w : Word} : legal w = true ↔ ∃ i, decode w = .ok i := by
  refine ⟨fun hl => ?_, fun ⟨i, hi⟩ => (decode_eq_ok_iff.mp hi).2⟩
  have hop : cmdOp w ∉ reservedOps := fun h => by
    rw [not_legal_of_reservedOp h] at hl
    cases hl
  obtain ⟨i, hi⟩ := commandOf_of_not_reservedOp hop
  exact ⟨i, decode_eq_ok_iff.mpr ⟨hi, hl⟩⟩

/-- The operands of a command are fields of the word (R141). -/
def Instr.operandsFrom (w : Word) : Instr → Prop
  | .hotp d => d = (cmdDigits w).toNat
  | .totp d t k => d = (cmdDigits w).toNat ∧ t = cmdTsrc w ∧ k = cmdTxtkey w
  | .verify d t k n => d = (cmdDigits w).toNat ∧ t = cmdTsrc w ∧ k = cmdTxtkey w ∧ n = (cmdWindow w).toNat
  | .ctrfor t => t = cmdTsrc w
  | .remsec t => t = cmdTsrc w
  | _ => True

/-- What OP and the operand fields say (R146). -/
theorem commandOf_eq_ok_iff {w : Word} {i : Instr} :
    commandOf w = .ok i ↔ cmdOp w = EncodeLegal.opOf i ∧ i.operandsFrom w := by
  constructor
  · intro h
    unfold commandOf at h
    split at h <;> cases h
    all_goals exact ⟨BitVec.eq_of_toNat_eq (by assumption), by simp [Instr.operandsFrom]⟩
  · rintro ⟨hop, hf⟩
    rw [commandOf, hop]
    cases i with
    | hotp d => subst hf; rfl
    | totp d t k => obtain ⟨rfl, rfl, rfl⟩ := hf; rfl
    | verify d t k n => obtain ⟨rfl, rfl, rfl, rfl⟩ := hf; rfl
    | ctrfor t => subst hf; rfl
    | remsec t => subst hf; rfl
    | _ => rfl

/-! ### The encoder against the decoder (R141, R146, R147) -/

/-- The word of a well-formed command is legal and carries its OP, every command at once. -/
theorem encode_legal_op (i : Instr) : EncodeLegal.Statement i := by
  cases i with
  | sha1 => exact EncodeLegal.sha1
  | hmac => exact EncodeLegal.hmac
  | hotp d => exact EncodeLegal.hotp d
  | totp d t k => exact EncodeLegal.totp d t k
  | verify d t k n => exact EncodeLegal.verify d t k n
  | b32enc => exact EncodeLegal.b32enc
  | b32dec => exact EncodeLegal.b32dec
  | ctrfor t => exact EncodeLegal.ctrfor t
  | remsec t => exact EncodeLegal.remsec t
  | zero => exact EncodeLegal.zero
  | nop => exact EncodeLegal.nop

theorem fitsNibble_iff {n : Nat} : fitsNibble n = true ↔ n < 16 := decide_eq_true_iff

/-- A number that fits a 4-bit field is read back from it. -/
theorem eq_toNat_ofNat {n : Nat} (h : fitsNibble n = true) : n = (BitVec.ofNat 4 n).toNat :=
  (Nat.mod_eq_of_lt (fitsNibble_iff.mp h)).symm

/-- The operands of a well-formed command are read back from its word. -/
theorem operandsFrom_encode {i : Instr} (h : i.wellFormed = true) : i.operandsFrom (encode i) := by
  cases i with
  | hotp d => simpa [Instr.operandsFrom, encode] using eq_toNat_ofNat h
  | totp d t k => simpa [Instr.operandsFrom, encode] using eq_toNat_ofNat h
  | verify d t k n =>
    obtain ⟨hd, hn⟩ := Bool.and_eq_true_iff.mp h
    simpa [Instr.operandsFrom, encode] using ⟨eq_toNat_ofNat hd, eq_toNat_ofNat hn⟩
  | ctrfor t => simp [Instr.operandsFrom, encode]
  | remsec t => simp [Instr.operandsFrom, encode]
  | _ => trivial

theorem decode_encode {i : Instr} (h : i.wellFormed = true) : decode (encode i) = .ok i := by
  obtain ⟨hlegal, hop⟩ := encode_legal_op i h
  exact decode_eq_ok_iff.mpr ⟨commandOf_eq_ok_iff.mpr ⟨hop, operandsFrom_encode h⟩, hlegal⟩

/-- Settles O1: the word is legal, its OP names the command, and its fields give the operands back. -/
theorem decodeInvertsEncode : Obligations.DecodeInvertsEncode := fun _ => decode_encode

/-- The row of a command in the opcode map (R146). -/
def Instr.row : Instr → OpRow
  | .sha1 => { mnemonic := "SHA1", value := 0x00000001, mask := 0xFFFFFFFF }
  | .hmac => { mnemonic := "HMAC", value := 0x00000002, mask := 0xFFFFFFFF }
  | .hotp _ => { mnemonic := "HOTP", value := 0x00000003, mask := 0xFFFFFF0F }
  | .totp _ _ _ => { mnemonic := "TOTP", value := 0x00000004, mask := 0xFFFFFC0F }
  | .verify _ _ _ _ => { mnemonic := "VERIFY", value := 0x00000005, mask := 0xFFFFC00F }
  | .b32enc => { mnemonic := "B32ENC", value := 0x00000006, mask := 0xFFFFFFFF }
  | .b32dec => { mnemonic := "B32DEC", value := 0x00000007, mask := 0xFFFFFFFF }
  | .ctrfor _ => { mnemonic := "CTRFOR", value := 0x00000008, mask := 0xFFFFFEFF }
  | .remsec _ => { mnemonic := "REMSEC", value := 0x00000009, mask := 0xFFFFFEFF }
  | .zero => { mnemonic := "ZERO", value := 0x0000000A, mask := 0xFFFFFFFF }
  | .nop => { mnemonic := "NOP", value := 0x0000000F, mask := 0xFFFFFFFF }

/-- It is the row with the command's OP. -/
theorem Instr.row_mem (i : Instr) : i.row ∈ opcodeMap ∧ cmdOp i.row.value = EncodeLegal.opOf i := by
  cases i <;> simp [Instr.row, opcodeMap, EncodeLegal.opOf, cmdOp]

/-- A word the decoder reads as a command: its row matches, and the operands are its fields. -/
theorem row_of_decode {w : Word} {i : Instr} (h : decode w = .ok i) :
    w &&& i.row.mask = i.row.value ∧ i.operandsFrom w := by
  obtain ⟨hc, hl⟩ := decode_eq_ok_iff.mp h
  obtain ⟨hop, hf⟩ := commandOf_eq_ok_iff.mp hc
  obtain ⟨hmem, hrow⟩ := i.row_mem
  exact ⟨(legal_iff_of_op hmem (hop.trans hrow.symm)).mp hl, hf⟩

theorem fitsNibble_toNat (x : BitVec 4) : fitsNibble x.toNat = true := fitsNibble_iff.mpr x.isLt

theorem wellFormed_of_operandsFrom {w : Word} {i : Instr} (h : i.operandsFrom w) : i.wellFormed = true := by
  cases i with
  | hotp d => subst h; exact fitsNibble_toNat _
  | totp d t k => obtain ⟨rfl, -, -⟩ := h; exact fitsNibble_toNat _
  | verify d t k n =>
    obtain ⟨rfl, -, -, rfl⟩ := h
    exact Bool.and_eq_true_iff.mpr ⟨fitsNibble_toNat _, fitsNibble_toNat _⟩
  | _ => rfl

/-- A 4-bit field is its own number again. -/
theorem nibble_eq_ofNat_toNat (x : BitVec 4) : x = BitVec.ofNat 4 x.toNat := by simp

/-- A command's word is every word the decoder reads as it: what the row's mask covers is the row's value, and the rest
are the operands. -/
theorem encode_of_decode {w : Word} {i : Instr} (h : decode w = .ok i) : encode i = w := by
  obtain ⟨hrow, hf⟩ := row_of_decode h
  cases i with
  | hotp d =>
    subst hf
    have masked := @field_of_masked w 0xFFFFFF0F 0x3 hrow
    exact packWord_eq_of_fields (masked (by decide)) (nibble_eq_ofNat_toNat _) (masked (by decide)) (masked (by decide))
      (masked (by decide)) (masked (by decide))
  | totp d t k =>
    obtain ⟨rfl, rfl, rfl⟩ := hf
    have masked := @field_of_masked w 0xFFFFFC0F 0x4 hrow
    exact packWord_eq_of_fields (masked (by decide)) (nibble_eq_ofNat_toNat _) (bit_cmdTsrc w).symm
      (bit_cmdTxtkey w).symm (masked (by decide)) (masked (by decide))
  | verify d t k n =>
    obtain ⟨rfl, rfl, rfl, rfl⟩ := hf
    have masked := @field_of_masked w 0xFFFFC00F 0x5 hrow
    exact packWord_eq_of_fields (masked (by decide)) (nibble_eq_ofNat_toNat _) (bit_cmdTsrc w).symm
      (bit_cmdTxtkey w).symm (nibble_eq_ofNat_toNat _) (masked (by decide))
  | ctrfor t =>
    subst hf
    have masked := @field_of_masked w 0xFFFFFEFF 0x8 hrow
    exact packWord_eq_of_fields (masked (by decide)) (masked (by decide)) (bit_cmdTsrc w).symm (masked (by decide))
      (masked (by decide)) (masked (by decide))
  | remsec t =>
    subst hf
    have masked := @field_of_masked w 0xFFFFFEFF 0x9 hrow
    exact packWord_eq_of_fields (masked (by decide)) (masked (by decide)) (bit_cmdTsrc w).symm (masked (by decide))
      (masked (by decide)) (masked (by decide))
  | _ => exact hrow.symm.trans BitVec.and_allOnes

/-- Settles O2: the bits under the row's mask are the row's, and the others are the operands. -/
theorem encodeInvertsDecode : Obligations.EncodeInvertsDecode := by
  intro w i h
  obtain ⟨-, hf⟩ := row_of_decode h
  exact ⟨wellFormed_of_operandsFrom hf, encode_of_decode h⟩

/-- Settles O3: a row that matches has the word's OP, and no two rows have the same OP. -/
theorem legalWordsMatchOneRow : Obligations.LegalWordsMatchOneRow :=
  fun w => ⟨legal_iff_decode, legal_iff_row, length_matching_rows_le w⟩

/-- Settles O4: the layout is the definition of the fields, and each word evaluates. -/
theorem sampleWordsDecode : Obligations.SampleWordsDecode := by
  unfold Obligations.SampleWordsDecode
  refine ⟨fun w => ⟨rfl, rfl, rfl, rfl, rfl⟩, ?_⟩
  decide

end Sys2Proof
end

section
/-! PROOFS. The life of a command: its accept, its completion and its record, and what reads S_TIME (R148, R150 to R152). -/

namespace Sys2Proof.Machine

/-! ### The accept (R150) -/

/-- A write of CMD while BUSY = 0 is the accept of the word. -/
theorem State.perform_write_cmd (s : State) (w : Word) (hb : s.busy = false) :
    s.perform (.write 32 0x008 w) = { s.accept w with resp := okayWrite } :=
  s.perform_write_idle (off := 0x008) w rfl hb

/-- The accept by fields: the time is TIME unless bit 8 of the word says TARG. -/
theorem State.accept_eq (s : State) (w : Word) :
    s.accept w =
      { s with cmdLatch := w, sTime := if w.getLsbD 8 = false then s.time else s.targ, busy := true } := by
  rw [State.accept, State.sampledTime]
  cases w.getLsbD 8 <;> rfl

/-! ### Illegal words (R147, R148) -/

/-- The completion of a word no row matches. -/
theorem completion_of_not_legal {s : State} (h : legal s.cmdLatch = false) :
    completion s = .next (s.finish .illegalCmd) := by
  cases hd : decode s.cmdLatch with
  | ok i => rw [legal_iff_decode.mpr ⟨i, hd⟩] at h; cases h
  | error r => exact completion_of_reject hd

/-- Settles O5: no row has a reserved OP, and the completion of a word with no row makes the record alone. -/
theorem illegalCommandCompletes : Obligations.IllegalCommandCompletes := by
  unfold Obligations.IllegalCommandCompletes
  refine ⟨fun w hop => not_legal_of_reservedOp (by simpa [reservedOps] using hop), fun s w hl hb => ?_⟩
  rw [s.perform_write_cmd w hb]
  exact ⟨rfl, rfl, completion_of_not_legal hl⟩

/-! ### What reads S_TIME (R150) -/

/-- The state with another sampled time. -/
def State.withSTime (s : State) (x : DWord) : State := { s with sTime := x }

/-- The commands that use a time: TOTP, VERIFY, CTRFOR and REMSEC. -/
def usesTime : Instr → Bool
  | .totp _ _ _ => true
  | .verify _ _ _ _ => true
  | .ctrfor _ => true
  | .remsec _ => true
  | _ => false

theorem map_withSTime_ite (c : Prop) [Decidable c] (a b : Result) (x : DWord) :
    (if c then a else b).map (State.withSTime · x) =
      if c then a.map (State.withSTime · x) else b.map (State.withSTime · x) := apply_ite ..

/-- The result of any other command is the same from another sampled time, and leaves that time. -/
theorem resultOf_withSTime {i : Instr} (h : usesTime i = false) (s : State) (x : DWord) :
    resultOf i (s.withSTime x) = (resultOf i s).map (State.withSTime · x) := by
  cases i with
  | sha1 =>
    simp only [resultOf, sha1Result, map_withSTime_ite]
    rfl
  | hmac =>
    simp only [resultOf, hmacResult, map_withSTime_ite]
    rfl
  | hotp d =>
    simp only [resultOf, hotpResult, map_withSTime_ite]
    cases digitsOf d <;> rfl
  | b32enc =>
    simp only [resultOf, b32encResult, map_withSTime_ite]
    rfl
  | b32dec =>
    have htxt : (s.withSTime x).txtBytes = s.txtBytes := rfl
    simp only [resultOf, b32decResult, map_withSTime_ite, htxt]
    cases b32decode s.txtBytes with
    | none => rfl
    | some r =>
      simp only [map_withSTime_ite]
      rfl
  | zero => rfl
  | nop => rfl
  | _ => cases h

theorem commit_withSTime (s : State) (r : Result) (x : DWord) :
    (s.withSTime x).commit (r.map (State.withSTime · x)) = (s.commit r).withSTime x := by
  cases r <;> rfl

/-- Settles O6: the accept by its fields, the dropped write, and the seven commands that use no time. -/
theorem cmdWriteAcceptsCommand : Obligations.CmdWriteAcceptsCommand := by
  unfold Obligations.CmdWriteAcceptsCommand
  refine ⟨fun s v hb => ?_, fun s v hb => s.perform_write_dropped (off := 0x008) v rfl rfl hb, fun s t i x hi h => ?_⟩
  · rw [s.perform_write_cmd v hb, s.accept_eq v]
  · have hu : usesTime i = false := by
      obtain rfl | rfl | ⟨d, rfl⟩ | rfl | rfl | rfl | rfl := hi <;> rfl
    rw [exec_eq_commit] at h
    cases h
    exact (exec_eq_commit i (s.withSTime x)).trans
      (congrArg _ ((congrArg _ (resultOf_withSTime hu s x)).trans (commit_withSTime s _ x)))

/-! ### The record of a completion (R151, R152) -/

/-- No command changes the latched word. -/
theorem cmdLatch_of_resultOf {i : Instr} {s t : State} (h : resultOf i s = .ok t) : t.cmdLatch = s.cmdLatch := by
  rw [resultOf_frame h]
  rfl

/-- Settles O7: a command commits its result, and the latch it records OP from is the one before its writes. -/
theorem completionRecordsOutcome : Obligations.CompletionRecordsOutcome := by
  unfold Obligations.CompletionRecordsOutcome
  intro i s
  refine ⟨_, exec_eq_commit i s, ?_⟩
  cases h : resultOf i s with
  | ok u => exact ⟨congrArg (BitVec.extractLsb' 0 4) (cmdLatch_of_resultOf h), rfl, rfl, fun he => absurd rfl he⟩
  | error e => exact ⟨rfl, rfl, rfl, fun _ => rfl⟩

/-! ### The step of a completion (R114, R151) -/

/-- With no event left, the engine completes the command in flight. -/
theorem step_busy_of_no_event {s : State} (h : s.inputs = []) (hb : s.busy = true) : step s = completion s := by
  rw [step, h]
  exact if_pos hb

/-- A completion the schedule names is the engine's, while BUSY = 1. -/
theorem step_complete_busy {s : State} {es : List Event} (h : s.inputs = .complete :: es) (hb : s.busy = true) :
    step s = completion { s with inputs := es } := by
  rw [step, h]
  exact if_pos hb

/-- The host numbers words as the decoder reads them. -/
theorem decode_of_decodeTableWord {nbits w : Nat} {i : Instr} (h : decodeTableWord nbits w = some i) :
    decode (tableWord nbits w) = .ok i := by
  unfold decodeTableWord at h
  split at h
  · next hd => rwa [Option.some.inj h] at hd
  · cases h

/-- Settles O8: each completion step is the completion of the latched word. -/
theorem stepRunsDecodedCommand : Obligations.StepRunsDecodedCommand := by
  unfold Obligations.StepRunsDecodedCommand
  refine ⟨fun s i hb hd => ⟨fun h => ?_, fun es h => ?_⟩, fun s nbits w i h => ?_⟩
  · exact (step_busy_of_no_event h hb).trans (completion_of_decode hd)
  · exact (step_complete_busy h hb).trans (completion_of_decode (s := { s with inputs := es }) hd)
  · exact (step_complete_busy rfl rfl).trans (completion_of_decode (decode_of_decodeTableWord h))

end Sys2Proof.Machine
end

section
/-! PROOFS. The words the assembler issues (R156). -/

namespace Sys2Proof.Machine

/-! ### A packed word as a number (R141) -/

/-- The fields of a word, each shifted to its place. -/
theorem packWord_eq_ofNat {op d n : Nat} (hop : op < 16) (hd : d < 16) (hn : n < 16) (t : TimeSrc) (k : KeySrc) :
    packWord op d t k n =
      BitVec.ofNat 32 (op ||| d <<< 4 ||| t.bit.toNat <<< 8 ||| k.bit.toNat <<< 9 ||| n <<< 10) := by
  have hnat : (packWord op d t k n).toNat =
      op ||| d <<< 4 ||| t.bit.toNat <<< 8 ||| k.bit.toNat <<< 9 ||| n <<< 10 := by
    simp only [packWord, BitVec.toNat_append, BitVec.toNat_ofNat, Nat.reducePow, Nat.mod_eq_of_lt hop,
      Nat.mod_eq_of_lt hd, Nat.mod_eq_of_lt hn, Nat.shiftLeft_or_distrib, ← Nat.shiftLeft_add]
    simp
    ac_rfl
  rw [← hnat, BitVec.ofNat_toNat, BitVec.setWidth_eq]

/-! ### The operands of a statement (R156) -/

/-- TSRC of `t=now`, `t=arg` or no `t`. -/
theorem bit_getD_now (t : Option TimeSrc) : (t.getD .now).bit.toNat = asmTimeBit t := by
  cases t with
  | none => rfl
  | some u => cases u <;> rfl

/-- TXTKEY of `k=key`, `k=txt` or no `k`. -/
theorem bit_getD_key (k : Option KeySrc) : (k.getD .key).bit.toNat = asmKeyBit k := by
  cases k with
  | none => rfl
  | some l => cases l <;> rfl

@[simp] theorem asmTimeBit_none : asmTimeBit none = 0 := rfl

@[simp] theorem asmKeyBit_none : asmKeyBit none = 0 := rfl

theorem asmDigits_of_refused {d : Option Nat} (h : asmDigitsRefused d) : asmDigits d = none := by
  obtain ⟨n, rfl, hn⟩ := h
  exact if_neg (by omega)

/-- A digit count that is not refused is the DIGITS field, 0 where it is left out. -/
theorem asmDigits_of_not_refused {d : Option Nat} (h : ¬asmDigitsRefused d) :
    asmDigits d = some (d.getD 0) ∧ d.getD 0 < 16 := by
  cases d with
  | none => exact ⟨rfl, by decide⟩
  | some n =>
    have hn : 6 ≤ n ∧ n ≤ 8 := by
      by_contra hn
      exact h ⟨n, rfl, by omega⟩
    exact ⟨if_pos hn, show n < 16 by omega⟩

/-- The WINDOW field of a statement, 1 where it is left out (log 13). -/
theorem asmWindow_eq (w : Option Nat) : asmWindow w = if w.getD 1 < 16 then some (w.getD 1) else none := by
  cases w <;> rfl

theorem asmDigits_lt {d : Option Nat} {n : Nat} (h : asmDigits d = some n) : n < 16 := by
  by_cases hr : asmDigitsRefused d
  · rw [asmDigits_of_refused hr] at h
    cases h
  · obtain ⟨hd, hlt⟩ := asmDigits_of_not_refused hr
    rw [hd] at h
    cases h
    exact hlt

theorem asmWindow_lt {w : Option Nat} {n : Nat} (h : asmWindow w = some n) : n < 16 := by
  rw [asmWindow_eq] at h
  split at h
  · next hw => cases h; exact hw
  · cases h

/-! ### The write of a statement (R156) -/

/-- VERIFY is issued where both its numbers are taken. -/
theorem AsmOp.instr_verify (d w : Option Nat) (t : Option TimeSrc) (k : Option KeySrc) :
    (AsmOp.verify d w t k).instr =
      (asmDigits d).bind fun n => (asmWindow w).map fun m => .verify n (t.getD .now) (k.getD .key) m := by
  rw [AsmOp.instr]
  cases asmDigits d with
  | none => rfl
  | some n => cases asmWindow w <;> rfl

/-- A refused statement is no access. -/
theorem AsmOp.accesses_of_refused {op : AsmOp} (h : op.instr = none) : op.accesses = none := by
  rw [AsmOp.accesses, h, Option.map_none]

/-- A command with these fields is one write of the word R156 gives; a field it has no operand for is 0. -/
theorem AsmOp.accesses_of_fields {op : AsmOp} {i : Instr} (h : op.instr = some i) {c d n : Nat} {t : Option TimeSrc}
    {k : Option KeySrc} (hi : encode i = packWord c d (t.getD .now) (k.getD .key) n) (hc : c < 16) (hd : d < 16)
    (hn : n < 16) :
    op.accesses = writesCmd (c ||| d <<< 4 ||| asmTimeBit t <<< 8 ||| asmKeyBit k <<< 9 ||| n <<< 10) := by
  rw [AsmOp.accesses, h, Option.map_some, hi, packWord_eq_ofNat hc hd hn, bit_getD_now, bit_getD_key, writesCmd]

/-- Every command the assembler issues is well-formed. -/
theorem AsmOp.wellFormed_of_instr {op : AsmOp} {i : Instr} (h : op.instr = some i) : i.wellFormed = true := by
  cases op with
  | hotp d =>
    obtain ⟨n, hd, rfl⟩ := Option.map_eq_some_iff.mp h
    exact fitsNibble_iff.mpr (asmDigits_lt hd)
  | totp d t k =>
    obtain ⟨n, hd, rfl⟩ := Option.map_eq_some_iff.mp h
    exact fitsNibble_iff.mpr (asmDigits_lt hd)
  | verify d w t k =>
    rw [AsmOp.instr_verify] at h
    obtain ⟨n, hd, hw⟩ := Option.bind_eq_some_iff.mp h
    obtain ⟨m, hm, rfl⟩ := Option.map_eq_some_iff.mp hw
    exact Bool.and_eq_true_iff.mpr ⟨fitsNibble_iff.mpr (asmDigits_lt hd), fitsNibble_iff.mpr (asmWindow_lt hm)⟩
  | _ => cases h; rfl

/-- The word of each command statement that is not refused (R156). -/
theorem AsmOp.accesses_words {d w : Option Nat} (t : Option TimeSrc) (k : Option KeySrc) (hd : ¬asmDigitsRefused d)
    (hw : w.getD 1 ≤ 15) :
    (AsmOp.hotp d).accesses = writesCmd (0x3 ||| d.getD 0 <<< 4) ∧
    (AsmOp.totp d t k).accesses = writesCmd (0x4 ||| d.getD 0 <<< 4 ||| asmTimeBit t <<< 8 ||| asmKeyBit k <<< 9) ∧
    (AsmOp.verify d w t k).accesses =
      writesCmd (0x5 ||| d.getD 0 <<< 4 ||| asmTimeBit t <<< 8 ||| asmKeyBit k <<< 9 ||| w.getD 1 <<< 10) ∧
    (AsmOp.ctrfor t).accesses = writesCmd (0x8 ||| asmTimeBit t <<< 8) ∧
    (AsmOp.remsec t).accesses = writesCmd (0x9 ||| asmTimeBit t <<< 8) := by
  obtain ⟨hdigits, hlt⟩ := asmDigits_of_not_refused hd
  have hwindow : asmWindow w = some (w.getD 1) := (asmWindow_eq w).trans (if_pos (by omega))
  have hhotp : (AsmOp.hotp d).instr = some (.hotp (d.getD 0)) := by rw [AsmOp.instr, hdigits, Option.map_some]
  have htotp : (AsmOp.totp d t k).instr = some (.totp (d.getD 0) (t.getD .now) (k.getD .key)) := by
    rw [AsmOp.instr, hdigits, Option.map_some]
  have hverify : (AsmOp.verify d w t k).instr =
      some (.verify (d.getD 0) (t.getD .now) (k.getD .key) (w.getD 1)) := by
    rw [AsmOp.instr_verify, hdigits, hwindow, Option.bind_some, Option.map_some]
  refine ⟨?_, ?_, AsmOp.accesses_of_fields hverify rfl (by decide) hlt (by omega), ?_, ?_⟩
  · simpa using AsmOp.accesses_of_fields (c := 0x3) (t := none) (k := none) (n := 0) hhotp rfl (by decide) hlt
      (by decide)
  · simpa using AsmOp.accesses_of_fields (c := 0x4) (n := 0) htotp rfl (by decide) hlt (by decide)
  · simpa using AsmOp.accesses_of_fields (op := .ctrfor t) (c := 0x8) (d := 0) (k := none) (n := 0) rfl rfl (by decide)
      (by decide) (by decide)
  · simpa using AsmOp.accesses_of_fields (op := .remsec t) (c := 0x9) (d := 0) (k := none) (n := 0) rfl rfl (by decide)
      (by decide) (by decide)

/-- Settles O60: each statement's command is found from its operands, and its word is that command's fields packed. -/
theorem assemblerIssuesLegalWords : Obligations.AssemblerIssuesLegalWords := by
  unfold Obligations.AssemblerIssuesLegalWords
  refine ⟨fun d w t k h => ?_, fun d w t k h => ?_, fun d w t k => AsmOp.accesses_words t k,
    ⟨rfl, rfl, rfl, rfl, rfl, rfl⟩, fun op as h => ?_⟩
  · have hd := asmDigits_of_refused h
    refine ⟨AsmOp.accesses_of_refused ?_, AsmOp.accesses_of_refused ?_, AsmOp.accesses_of_refused ?_⟩
    · rw [AsmOp.instr, hd, Option.map_none]
    · rw [AsmOp.instr, hd, Option.map_none]
    · rw [AsmOp.instr_verify, hd, Option.bind_none]
  · have hw : asmWindow w = none := (asmWindow_eq w).trans (if_neg (by omega))
    refine AsmOp.accesses_of_refused ?_
    rw [AsmOp.instr_verify, hw]
    exact Option.bind_fun_none _
  · obtain ⟨i, hi, rfl⟩ := Option.map_eq_some_iff.mp h
    exact ⟨i, hi, rfl, decode_encode (AsmOp.wellFormed_of_instr hi)⟩

end Sys2Proof.Machine
end

section
/-! PROOFS. Bit strings: the bits of a number, the number a bit string writes, and the groups a bit string is cut in
(R203, R205). -/

namespace Sys2Proof.Machine

/-! ### Numbers and bit strings (R203, R205) -/

@[simp] theorem length_bitsOf (n v : Nat) : (bitsOf n v).length = n := by simp [bitsOf]

/-- Bit i of a number, counted from the most significant of its `n` bits. -/
theorem getD_bitsOf {n i : Nat} (v : Nat) (h : i < n) : (bitsOf n v).getD i false = v.testBit (n - 1 - i) := by
  simp [bitsOf, h]

/-- One more bit at the end doubles the number. -/
theorem numOf_concat (bs : List Bool) (b : Bool) : numOf (bs ++ [b]) = Nat.bit b (numOf bs) := by
  rw [Nat.bit_val, numOf, List.foldl_append]
  rfl

theorem numOf_lt (bs : List Bool) : numOf bs < 2 ^ bs.length := by
  induction bs using List.reverseRecOn with
  | nil => decide
  | append_singleton bs b ih =>
    rw [numOf_concat, Nat.bit_val, List.length_append, List.length_singleton, Nat.pow_succ]
    have := b.toNat_le
    omega

/-- The number a bit string writes has the string's bits. -/
theorem testBit_numOf {bs : List Bool} {k : Nat} (h : k < bs.length) :
    (numOf bs).testBit (bs.length - 1 - k) = bs.getD k false := by
  induction bs using List.reverseRecOn with
  | nil => cases h
  | append_singleton bs b ih =>
    rw [List.length_append, List.length_singleton] at h ⊢
    rw [numOf_concat, Nat.add_sub_cancel]
    by_cases hk : k < bs.length
    · rw [List.getD_append _ _ _ _ hk, ← ih hk, show bs.length - k = bs.length - 1 - k + 1 by omega,
        Nat.testBit_bit_succ]
    · obtain rfl : k = bs.length := by omega
      rw [List.getD_append_right _ _ _ _ (le_refl _), Nat.sub_self, Nat.testBit_bit_zero]
      rfl

/-- Bit i of a string of n-bit numbers is in number i / n; past the end it is 0. -/
theorem getD_flatMap_bitsOf {n : Nat} (hn : 0 < n) (vs : List Nat) (i : Nat) :
    (vs.flatMap (bitsOf n)).getD i false = (vs.getD (i / n) 0).testBit (n - 1 - i % n) := by
  induction vs generalizing i with
  | nil => simp
  | cons v vs ih =>
    rw [List.flatMap_cons]
    by_cases hi : i < n
    · rw [List.getD_append _ _ _ _ (by rwa [length_bitsOf]), getD_bitsOf v hi, Nat.div_eq_of_lt hi,
        Nat.mod_eq_of_lt hi, List.getD_cons_zero]
    · obtain ⟨j, rfl⟩ := Nat.exists_eq_add_of_le' (not_lt.mp hi)
      rw [List.getD_append_right _ _ _ _ (by rw [length_bitsOf]; omega), length_bitsOf, Nat.add_sub_cancel, ih,
        Nat.add_div_right j hn, Nat.add_mod_right, List.getD_cons_succ]

theorem length_flatMap_bitsOf (n : Nat) (vs : List Nat) : (vs.flatMap (bitsOf n)).length = n * vs.length := by
  simp [List.length_flatMap, Nat.mul_comm]

/-- The bits of the number a whole group writes are the string's from the group's place on. -/
theorem testBit_numOf_group {n j k : Nat} {bits : List Bool} (h : n * j + n ≤ bits.length) (hk : k < n) :
    (numOf (group n bits j)).testBit (n - 1 - k) = bits.getD (n * j + k) false := by
  have hlen : (group n bits j).length = n := by simp only [group, List.length_take, List.length_drop]; omega
  have hbit := testBit_numOf (bs := group n bits j) (k := k) (by rwa [hlen])
  rw [hlen] at hbit
  rw [hbit, group, List.getD_eq_getElem?_getD, List.getElem?_take_of_lt hk, List.getElem?_drop,
    List.getD_eq_getElem?_getD]

theorem numOf_group_lt (n j : Nat) (bits : List Bool) : numOf (group n bits j) < 2 ^ n :=
  lt_of_lt_of_le (numOf_lt _) (Nat.pow_le_pow_right (by decide) (List.length_take_le _ _))

end Sys2Proof.Machine
end

section
/-! PROOFS. Base32 on byte strings: what the encoder writes, which strings the decoder takes, and that they invert each other
(R200 to R208). -/

namespace Sys2Proof.Machine

/-! ### The alphabet (R200, R202) -/

/-- The decode map reads each character of the alphabet as its value. -/
theorem b32Value_b32Char {v : Nat} (h : v < 32) : b32Value (b32Char v) = some v := by
  have key : ∀ v < 32, b32Value (b32Char v) = some v := by decide
  exact key v h

/-- "=" is no data character. -/
theorem b32Value_padChar : b32Value padChar = none := by decide

/-- Settles O29: the alphabet is a finite table, and a byte has no value exactly where every branch of the decode map
fails. -/
theorem base32Alphabet : Obligations.Base32Alphabet := by
  unfold Obligations.Base32Alphabet
  refine ⟨by decide, by decide, fun x => ?_⟩
  simp only [b32Value]
  split_ifs <;> simp_all

/-! ### The encoder (R203, R204) -/

/-- The bits the encoder cuts in groups: those of the bytes, and zeros up to a whole number of groups (R203). -/
def encodeBits (b : List Byte) : List Bool :=
  b.flatMap (fun x => bitsOf 8 x.toNat) ++ List.replicate (5 * b32DataLen b.length - 8 * b.length) false

/-- The values of the data characters of an encoding (R203). -/
def encodeValues (b : List Byte) : List Nat :=
  (List.range (b32DataLen b.length)).map fun j => numOf (group 5 (encodeBits b) j)

/-- An encoding is the characters of its values, then the pad (R203). -/
theorem b32encode_eq (b : List Byte) :
    b32encode b = (encodeValues b).map b32Char ++ List.replicate ((8 - b32DataLen b.length % 8) % 8) padChar := by
  rw [encodeValues, List.map_map]
  rfl

@[simp] theorem length_encodeValues (b : List Byte) : (encodeValues b).length = b32DataLen b.length := by
  simp [encodeValues]

theorem flatMap_byteBits (b : List Byte) :
    b.flatMap (fun x => bitsOf 8 x.toNat) = (b.map BitVec.toNat).flatMap (bitsOf 8) := by
  rw [List.flatMap_map]

theorem length_encodeBits (b : List Byte) : (encodeBits b).length = 5 * b32DataLen b.length := by
  rw [encodeBits, flatMap_byteBits, List.length_append, length_flatMap_bitsOf, List.length_map, List.length_replicate,
    b32DataLen]
  omega

/-- Bit i of the encoder's bits is bit i mod 8 of byte i / 8, and 0 after the last byte. -/
theorem getD_encodeBits (b : List Byte) (i : Nat) :
    (encodeBits b).getD i false = (b.getD (i / 8) 0).getMsbD (i % 8) := by
  have hfill : (encodeBits b).getD i false = ((b.map BitVec.toNat).flatMap (bitsOf 8)).getD i false := by
    rw [encodeBits, flatMap_byteBits]
    by_cases hi : i < ((b.map BitVec.toNat).flatMap (bitsOf 8)).length
    · exact List.getD_append _ _ _ _ hi
    · rw [List.getD_append_right _ _ _ _ (not_lt.mp hi), List.getD_eq_default _ _ (not_lt.mp hi)]
      simp
  have hmod : i % 8 < 8 := Nat.mod_lt i (by decide)
  rw [hfill, getD_flatMap_bitsOf (by decide), show (0 : Nat) = (0 : Byte).toNat from rfl, List.getD_map,
    BitVec.testBit_toNat, BitVec.getMsbD_eq_getLsbD, decide_eq_true hmod, Bool.true_and]

/-- Value j of an encoding is a 5-bit number, its bits those from 5j on (R203). -/
theorem encodeValues_bits (b : List Byte) {j : Nat} (hj : j < b32DataLen b.length) :
    (encodeValues b).getD j 0 < 32 ∧ ∀ k < 5,
      ((encodeValues b).getD j 0).testBit (4 - k) = (b.getD ((5 * j + k) / 8) 0).getMsbD ((5 * j + k) % 8) := by
  have hv : (encodeValues b).getD j 0 = numOf (group 5 (encodeBits b) j) := by simp [encodeValues, hj]
  have hgroup : 5 * j + 5 ≤ (encodeBits b).length := by rw [length_encodeBits]; omega
  rw [hv]
  exact ⟨numOf_group_lt 5 j _, fun k hk => (testBit_numOf_group hgroup hk).trans (getD_encodeBits b _)⟩

/-- The length of an encoding, a whole number of groups of 8 (R204). -/
theorem length_b32encode (b : List Byte) : (b32encode b).length = 8 * ((b.length + 4) / 5) := by
  rw [b32encode_eq, List.length_append, List.length_map, length_encodeValues, List.length_replicate, b32DataLen]
  omega

/-- The pad count by the bytes of the last group (R204). -/
theorem padCount_eq (n : Nat) : (8 - b32DataLen n % 8) % 8 = [0, 6, 4, 3, 1].getD (n % 5) 0 := by
  rw [b32DataLen]
  obtain h | h | h | h | h : n % 5 = 0 ∨ n % 5 = 1 ∨ n % 5 = 2 ∨ n % 5 = 3 ∨ n % 5 = 4 := by omega
  all_goals
    rw [h]
    simp only [List.getD_cons_zero, List.getD_cons_succ]
    omega

/-- Settles O30: the encoding is the characters of 5-bit values cut from the bytes' bits, and the zero fill is what a byte
past the end reads as. -/
theorem base32EncodingShape : Obligations.Base32EncodingShape := by
  unfold Obligations.Base32EncodingShape
  intro b
  have hlen : ((encodeValues b).map b32Char).length = b32DataLen b.length := by simp
  refine ⟨(encodeValues b).map b32Char, _, b32encode_eq b, hlen, by rw [hlen], fun j hj => ?_, length_b32encode b,
    padCount_eq b.length⟩
  rw [hlen] at hj
  obtain ⟨hlt, hbits⟩ := encodeValues_bits b hj
  refine ⟨(encodeValues b).getD j 0, hlt, by simp [hj], fun k hk => (hbits k hk).trans ?_⟩
  split
  · rfl
  · rw [List.getD_eq_default _ _ (by omega)]
    exact BitVec.getMsbD_zero

/-! ### The bytes of a list of values (R205, R206) -/

theorem length_b32Bytes (vs : List Nat) : (b32Bytes vs).length = 5 * vs.length / 8 := by simp [b32Bytes]

/-- Bit k of byte i is bit 8i + k of the values (R205). -/
theorem getMsbD_b32Bytes (vs : List Nat) {i k : Nat} (hi : i < 5 * vs.length / 8) (hk : k < 8) :
    ((b32Bytes vs).getD i 0).getMsbD k = (vs.getD ((8 * i + k) / 5) 0).testBit (4 - (8 * i + k) % 5) := by
  have hgroup : 8 * i + 8 ≤ (vs.flatMap (bitsOf 5)).length := by rw [length_flatMap_bitsOf]; omega
  have hbyte : (b32Bytes vs).getD i 0 = BitVec.ofNat 8 (numOf (group 8 (vs.flatMap (bitsOf 5)) i)) := by
    simp [b32Bytes, hi]
  rw [hbyte, BitVec.getMsbD_eq_getLsbD, BitVec.getLsbD_ofNat, decide_eq_true hk,
    decide_eq_true (show 8 - 1 - k < 8 by omega), Bool.true_and, Bool.true_and, testBit_numOf_group hgroup hk,
    getD_flatMap_bitsOf (by decide)]

/-- Length and bits determine the bytes. -/
theorem b32Bytes_eq_iff {vs : List Nat} {r : List Byte} :
    b32Bytes vs = r ↔ r.length = 5 * vs.length / 8 ∧ ∀ i < r.length, ∀ k < 8,
      (r.getD i 0).getMsbD k = (vs.getD ((8 * i + k) / 5) 0).testBit (4 - (8 * i + k) % 5) := by
  constructor
  · rintro rfl
    exact ⟨length_b32Bytes vs, fun i hi k hk => getMsbD_b32Bytes vs (length_b32Bytes vs ▸ hi) hk⟩
  · rintro ⟨hlen, hbits⟩
    refine List.ext_getElem ((length_b32Bytes vs).trans hlen.symm) fun i hi hr => ?_
    rw [← List.getD_eq_getElem _ 0 hi, ← List.getD_eq_getElem _ 0 hr]
    exact BitVec.eq_of_getMsbD_eq fun k hk =>
      (getMsbD_b32Bytes vs (hlen ▸ hr) hk).trans (hbits i hr k hk).symm

/-- The low bits of the last value, which no byte takes, do not matter (R206). -/
theorem b32Bytes_concat_congr (vs : List Nat) {u v : Nat}
    (h : u / 2 ^ (5 * (vs.length + 1) % 8) = v / 2 ^ (5 * (vs.length + 1) % 8)) :
    b32Bytes (vs ++ [u]) = b32Bytes (vs ++ [v]) := by
  have hlen (w : Nat) : (vs ++ [w]).length = vs.length + 1 := by simp
  have hlast (w : Nat) : (vs ++ [w]).getD vs.length 0 = w := by simp
  have hhigh : ∀ n, 5 * (vs.length + 1) % 8 ≤ n → u.testBit n = v.testBit n := fun n hn => by
    rw [← Nat.sub_add_cancel hn, ← Nat.testBit_div_two_pow, h, Nat.testBit_div_two_pow]
  refine b32Bytes_eq_iff.mpr ⟨by rw [length_b32Bytes, hlen, hlen], fun i hi k hk => ?_⟩
  rw [length_b32Bytes] at hi
  rw [getMsbD_b32Bytes _ hi hk]
  rw [hlen] at hi
  by_cases hbefore : (8 * i + k) / 5 < vs.length
  · rw [List.getD_append _ _ _ _ hbefore, List.getD_append _ _ _ _ hbefore]
  · rw [show (8 * i + k) / 5 = vs.length by omega, hlast, hlast]
    exact (hhigh _ (by omega)).symm

/-! ### The decoder (R205) -/

theorem b32Values_cons_eq_some_iff {x : Byte} {d : List Byte} {vs : List Nat} :
    b32Values (x :: d) = some vs ↔ ∃ v ws, b32Value x = some v ∧ b32Values d = some ws ∧ v :: ws = vs := by
  rw [b32Values]
  cases b32Value x <;> cases b32Values d <;> simp

/-- A string has values exactly when each of its characters has one. -/
theorem b32Values_eq_some_iff {d : List Byte} {vs : List Nat} :
    b32Values d = some vs ↔ vs.length = d.length ∧ ∀ j < d.length, b32Value (d.getD j 0) = some (vs.getD j 0) := by
  induction d generalizing vs with
  | nil => simp [b32Values, eq_comm]
  | cons x d ih =>
    rw [b32Values_cons_eq_some_iff]
    constructor
    · rintro ⟨v, ws, hv, hws, rfl⟩
      obtain ⟨hlen, hval⟩ := ih.mp hws
      refine ⟨congrArg (· + 1) hlen, fun j hj => ?_⟩
      cases j with
      | zero => exact hv
      | succ j => exact hval j (Nat.lt_of_succ_lt_succ hj)
    · rintro ⟨hlen, hval⟩
      cases vs with
      | nil => cases hlen
      | cons v ws =>
        have htail : b32Values d = some ws :=
          ih.mpr ⟨Nat.succ.inj hlen, fun j hj => hval (j + 1) (Nat.succ_lt_succ hj)⟩
        exact ⟨v, ws, hval 0 (Nat.succ_pos _), htail, rfl⟩

theorem b32Values_concat (d : List Byte) {x : Byte} {u : Nat} (hx : b32Value x = some u) :
    b32Values (d ++ [x]) = (b32Values d).map (· ++ [u]) := by
  induction d with
  | nil => simp [b32Values, hx]
  | cons y d ih =>
    rw [List.cons_append, b32Values, b32Values, ih]
    cases b32Value y <;> cases b32Values d <;> rfl

/-- The values of characters are read back from them. -/
theorem b32Values_map_b32Char {vs : List Nat} (h : ∀ v ∈ vs, v < 32) : b32Values (vs.map b32Char) = some vs := by
  induction vs with
  | nil => rfl
  | cons v vs ih =>
    obtain ⟨hv, hvs⟩ := List.forall_mem_cons.mp h
    exact b32Values_cons_eq_some_iff.mpr ⟨v, vs, b32Value_b32Char hv, ih hvs, rfl⟩

theorem length_of_b32Values {d : List Byte} {vs : List Nat} (h : b32Values d = some vs) : vs.length = d.length :=
  (b32Values_eq_some_iff.mp h).1

/-- A string whose every character has a value does not end in "=". -/
theorem getLast?_ne_padChar {d : List Byte} {vs : List Nat} (h : b32Values d = some vs) :
    d.getLast? ≠ some padChar := by
  intro hlast
  obtain ⟨e, rfl⟩ := List.getLast?_eq_some_iff.mp hlast
  have hval := (b32Values_eq_some_iff.mp h).2 e.length (by simp)
  simp [b32Value_padChar] at hval

/-- The pad counts the decoder takes after a residue of data characters: none, or as many as are due (R205). -/
theorem padDue_allows_iff {q p : Nat} : (∃ due, padDue q = some due ∧ (p = 0 ∨ p = due)) ↔
    q = 0 ∧ p = 0 ∨ q = 2 ∧ (p = 0 ∨ p = 6) ∨ q = 4 ∧ (p = 0 ∨ p = 4) ∨ q = 5 ∧ (p = 0 ∨ p = 3) ∨
      q = 7 ∧ (p = 0 ∨ p = 1) := by
  unfold padDue
  split <;> simp_all

/-- The pad run at the end of a string is the "=" after its last other character. -/
theorem padRun_append_pads {d : List Byte} (hd : d.getLast? ≠ some padChar) (p : Nat) :
    padRun (d ++ List.replicate p padChar) = p := by
  have hstop : d.reverse.takeWhile (fun x => x == padChar) = [] := by
    rcases List.eq_nil_or_concat' d with rfl | ⟨e, x, rfl⟩
    · rfl
    · have hx : x ≠ padChar := by simpa using hd
      simp [hx]
  rw [padRun, List.reverse_append, List.reverse_replicate, List.takeWhile_append_of_pos (by simp), hstop]
  simp

/-- Every string is characters that do not end in "=", then a pad run. -/
theorem exists_append_pads (s : List Byte) :
    ∃ d p, s = d ++ List.replicate p padChar ∧ d.getLast? ≠ some padChar := by
  induction s using List.reverseRecOn with
  | nil => exact ⟨[], 0, rfl, by simp⟩
  | append_singleton s x ih =>
    by_cases hx : x = padChar
    · obtain ⟨d, p, rfl, hd⟩ := ih
      exact ⟨d, p + 1, by rw [hx, List.append_assoc, List.replicate_succ'], hd⟩
    · exact ⟨s ++ [x], 0, by simp, by simpa using hx⟩

/-- What the decoder answers for data characters and a pad run (R205). -/
theorem b32decode_append_pads {d r : List Byte} (hd : d.getLast? ≠ some padChar) (p : Nat) :
    b32decode (d ++ List.replicate p padChar) = some r ↔
      ∃ vs, b32Values d = some vs ∧ (∃ due, padDue (d.length % 8) = some due ∧ (p = 0 ∨ p = due)) ∧
        b32Bytes vs = r := by
  have htake : (d ++ List.replicate p padChar).take d.length = d := List.take_left
  have hlen : (d ++ List.replicate p padChar).length - p = d.length := by simp
  simp only [b32decode, padRun_append_pads hd, hlen, htake]
  cases b32Values d with
  | none => simp
  | some vs =>
    cases padDue (d.length % 8) with
    | none => simp
    | some due => by_cases h0 : p = 0 <;> by_cases h1 : p = due <;> simp [h0, h1]

/-- Settles O31: a string is cut before its pad run in one way, its characters have values, and the bytes are those bits. -/
theorem base32DecodeAccepts : Obligations.Base32DecodeAccepts := by
  unfold Obligations.Base32DecodeAccepts
  intro s r
  constructor
  · intro h
    obtain ⟨d, p, rfl, hd⟩ := exists_append_pads s
    obtain ⟨vs, hvs, hpad, hr⟩ := (b32decode_append_pads hd p).mp h
    obtain ⟨hlen, hval⟩ := b32Values_eq_some_iff.mp hvs
    exact ⟨d, p, vs, rfl, hlen, hval, padDue_allows_iff.mp hpad, hlen ▸ b32Bytes_eq_iff.mp hr⟩
  · rintro ⟨d, p, vs, rfl, hlen, hval, hpad, hbytes⟩
    have hvs := b32Values_eq_some_iff.mpr ⟨hlen, hval⟩
    exact (b32decode_append_pads (getLast?_ne_padChar hvs) p).mpr
      ⟨vs, hvs, padDue_allows_iff.mpr hpad, b32Bytes_eq_iff.mpr (hlen ▸ hbytes)⟩

/-! ### The two together (R206, R208) -/

theorem encodeValues_lt (b : List Byte) : ∀ v ∈ encodeValues b, v < 32 := by
  intro v hv
  obtain ⟨j, -, rfl⟩ := List.mem_map.mp hv
  exact numOf_group_lt 5 j _

/-- An encoding has as many "=" as are due. -/
theorem padDue_encode (n : Nat) : padDue (b32DataLen n % 8) = some ((8 - b32DataLen n % 8) % 8) := by
  have hclass : ∀ q < 8, q ≠ 1 → q ≠ 3 → q ≠ 6 → padDue q = some ((8 - q) % 8) := by decide
  have hlen : b32DataLen n = (8 * n + 4) / 5 := rfl
  exact hclass _ (Nat.mod_lt _ (by decide)) (by omega) (by omega) (by omega)

/-- The bytes of an encoding's values: bit 8i + k of the values is bit k of byte i. -/
theorem b32Bytes_encodeValues (b : List Byte) : b32Bytes (encodeValues b) = b := by
  have hlen : b32DataLen b.length = (8 * b.length + 4) / 5 := rfl
  refine b32Bytes_eq_iff.mpr ⟨by rw [length_encodeValues]; omega, fun i hi k hk => ?_⟩
  obtain ⟨-, hbits⟩ := encodeValues_bits b (j := (8 * i + k) / 5) (by omega)
  rw [hbits _ (Nat.mod_lt _ (by decide)), Nat.div_add_mod, show (8 * i + k) / 8 = i by omega,
    show (8 * i + k) % 8 = k by omega]

theorem b32decode_b32encode (b : List Byte) : b32decode (b32encode b) = some b := by
  have hvs := b32Values_map_b32Char (encodeValues_lt b)
  rw [b32encode_eq, b32decode_append_pads (getLast?_ne_padChar hvs)]
  refine ⟨encodeValues b, hvs, ⟨_, ?_, .inr rfl⟩, b32Bytes_encodeValues b⟩
  rw [List.length_map, length_encodeValues]
  exact padDue_encode b.length

/-- Settles O32: the values are read back, the pad is the one due, and their bits are the bytes'. -/
theorem base32RoundTrip : Obligations.Base32RoundTrip := b32decode_b32encode

/-- What the decoder answers where the last data character has the value `u`. -/
theorem b32decode_concat_append_pads (d : List Byte) {x : Byte} {u : Nat} (hx : b32Value x = some u) (p : Nat)
    {r : List Byte} : b32decode (d ++ [x] ++ List.replicate p padChar) = some r ↔
      ∃ vs, b32Values d = some vs ∧ (∃ due, padDue ((d.length + 1) % 8) = some due ∧ (p = 0 ∨ p = due)) ∧
        b32Bytes (vs ++ [u]) = r := by
  have hlast : (d ++ [x]).getLast? ≠ some padChar := by
    rw [List.getLast?_concat]
    rintro ⟨⟩
    cases hx
  rw [b32decode_append_pads hlast, b32Values_concat d hx, List.length_append, List.length_singleton]
  simp only [Option.map_eq_some_iff, exists_exists_and_eq_and]

/-- Settles O33: the bytes of the values do not depend on the bits of the last one below the last whole byte. -/
theorem base32TrailingBitsIgnored : Obligations.Base32TrailingBitsIgnored := by
  unfold Obligations.Base32TrailingBitsIgnored
  refine ⟨fun d x y u v p hx hy huv => Option.ext fun r => ?_, by decide, by decide⟩
  rw [show (0x3D : Byte) = padChar from rfl, b32decode_concat_append_pads d hx, b32decode_concat_append_pads d hy]
  refine exists_congr fun vs => and_congr_right fun hvs => ?_
  have hbytes : b32Bytes (vs ++ [u]) = b32Bytes (vs ++ [v]) :=
    b32Bytes_concat_congr vs (by rwa [length_of_b32Values hvs])
  rw [hbytes]

end Sys2Proof.Machine
end

section
/-! PROOFS. The Base32 commands on the block (R210, R220), and a row of the opcode map against the decoder. -/

namespace Sys2Proof.Machine

open Sys2Proof.Laws

/-! ### Rows and endings (R146, R147, R151, R152) -/

/-- A row decodes as `build`, where `build` makes commands of the row's OP with operands from the word. -/
theorem rowDecodes_of_row {name : String} {op : BitVec 4} {mask : Word} {build : Word → Instr}
    (hr : { mnemonic := name, value := op.setWidth 32, mask := mask } ∈ opcodeMap)
    (hbuild : ∀ w, EncodeLegal.opOf (build w) = op ∧ (build w).operandsFrom w) : rowDecodes op mask build := by
  intro w hw
  obtain ⟨hop, hf⟩ := hbuild w
  have hcommand : commandOf w = .ok (build w) := commandOf_eq_ok_iff.mpr ⟨hw.trans hop.symm, hf⟩
  have hrow : cmdOp w = cmdOp (op.setWidth 32) := by
    rw [hw, cmdOp, BitVec.extractLsb'_setWidth_of_le (by decide), BitVec.extractLsb'_eq_self]
  have hlegal := legal_iff_of_op hr hrow
  rw [decode, hcommand, hw]
  simp only [hlegal]

/-- A command whose result function answers an error fails with it. -/
theorem failsWith_of_error {i : Instr} {s : State} {e : ErrCode} (h : resultOf i s = .error e) : failsWith i s e := by
  rw [failsWith, exec_eq_commit, h]
  rfl

/-- A command whose result function answers a state ends in that state with the record made. -/
theorem exec_of_ok {i : Instr} {s t : State} (h : resultOf i s = .ok t) : exec i s = .next (t.recorded .ok) := by
  rw [exec_eq_commit, h]
  rfl

/-- Writing a buffer leaves every byte outside it. -/
theorem sameBytesOutside_setBuf (s : State) (b : Buffer) (bs : List Byte) :
    sameBytesOutside [b] s (s.setBuf b bs) := by
  intro a ha
  have hout : ¬(bufBase b ≤ a ∧ a < bufBase b + bufSize b) := of_decide_eq_false (ha b (List.mem_singleton_self b))
  exact (Memory.read_setBuf s.mem b bs a).trans (if_neg hout)

/-- The list written to a buffer is its first bytes. -/
theorem State.bytes_setBuf_self (s : State) (b : Buffer) {bs : List Byte} (h : bs.length ≤ bufSize b) :
    (s.setBuf b bs).bytes b bs.length = bs := by
  refine List.ext_getElem (State.length_bytes _ _ _) fun i hi hbs => ?_
  rw [← List.getD_eq_getElem _ 0 hi, State.getD_bytes _ _ hbs, s.byte_setBuf_same b bs (by omega),
    List.getD_eq_getElem _ 0 hbs]

/-! ### The length checks (R46, R48, R401) -/

theorem State.not_keyTooLong_of_le {s : State} (h : s.keylen.toNat ≤ 64) : ¬s.keyTooLong = true :=
  fun hl => absurd (of_decide_eq_true hl) (not_lt.mpr h)

theorem State.not_txtTooLong_of_le {s : State} (h : s.txtlen.toNat ≤ 128) : ¬s.txtTooLong = true :=
  fun hl => absurd (of_decide_eq_true hl) (not_lt.mpr h)

/-! ### B32ENC (R210) -/

theorem b32encResult_of_le {s : State} (h : s.keylen.toNat ≤ 64) :
    b32encResult s = .ok (s.setText (b32encode (s.bytes .key s.keylen.toNat))) :=
  if_neg (State.not_keyTooLong_of_le h)

theorem b32encResult_of_lt {s : State} (h : 64 < s.keylen.toNat) : b32encResult s = .error .invalidLength :=
  if_pos (decide_eq_true h)

/-- The encoding of a key fits TXT and its length TXTLEN (R210). -/
theorem length_b32encode_le {b : List Byte} (h : b.length ≤ 64) : (b32encode b).length ≤ 104 := by
  rw [length_b32encode]
  omega

/-- Settles O16: the row, the length check, and the one write of TXT and TXTLEN. -/
theorem b32encCommand : Obligations.B32encCommand := by
  unfold Obligations.B32encCommand
  refine ⟨rowDecodes_of_row (name := "B32ENC") (by decide) fun _ => ⟨rfl, trivial⟩,
    fun s h => failsWith_of_error (b32encResult_of_lt h), fun s h => ?_⟩
  have hlen : (b32encode (s.bytes .key s.keylen.toNat)).length ≤ 104 := length_b32encode_le (by rwa [State.length_bytes])
  refine ⟨_, _, exec_of_ok (b32encResult_of_le h), rfl, hlen, ?_, ?_, ?_, rfl⟩
  · exact s.bytes_setBuf_same .txt (hlen.trans (by decide))
  · exact Nat.mod_eq_of_lt (by omega)
  · exact sameBytesOutside_setBuf s .txt _

/-! ### B32DEC (R220) -/

theorem b32decResult_of_lt {s : State} (h : 128 < s.txtlen.toNat) : b32decResult s = .error .invalidLength :=
  if_pos (decide_eq_true h)

section
variable {s : State} (h : s.txtlen.toNat ≤ 128)
include h

/-- With a length in range the answer is the decoder's (R220). -/
theorem b32decResult_of_none (hd : b32decode (s.bytes .txt s.txtlen.toNat) = none) :
    b32decResult s = .error .invalidEncoding := by
  rw [b32decResult, State.txtBytes, hd]
  exact if_neg (State.not_txtTooLong_of_le h)

theorem b32decResult_of_some {r : List Byte} (hd : b32decode (s.bytes .txt s.txtlen.toNat) = some r) :
    b32decResult s = if 64 < r.length then .error .keyOverflow else .ok (s.setKey r) := by
  rw [b32decResult, State.txtBytes, hd]
  exact if_neg (State.not_txtTooLong_of_le h)

end

/-- Settles O17: the row, the checks in their order, and the one write of KEY and KEYLEN. -/
theorem b32decCommand : Obligations.B32decCommand := by
  unfold Obligations.B32decCommand
  refine ⟨rowDecodes_of_row (name := "B32DEC") (by decide) fun _ => ⟨rfl, trivial⟩,
    fun s h => failsWith_of_error (b32decResult_of_lt h),
    fun s h hd => failsWith_of_error (b32decResult_of_none h hd),
    fun s r h hd hr => failsWith_of_error ((b32decResult_of_some h hd).trans (if_pos hr)), fun s r h hd hr => ?_⟩
  refine ⟨_, exec_of_ok ((b32decResult_of_some h hd).trans (if_neg (by omega))), ?_, ?_, ?_, rfl⟩
  · exact s.bytes_setBuf_same .key hr
  · exact Nat.mod_eq_of_lt (by omega)
  · exact sameBytesOutside_setBuf s .key _

/-! ### B32ENC, then B32DEC (R208) -/

/-- Settles O34: B32DEC reads the text B32ENC left, which decodes to the key. -/
theorem keySurvivesEncodeDecode : Obligations.KeySurvivesEncodeDecode := by
  unfold Obligations.KeySurvivesEncodeDecode
  intro s h
  generalize hk : s.bytes .key s.keylen.toNat = k
  have hklen : k.length = s.keylen.toNat := hk ▸ State.length_bytes _ _ _
  have hxlen : (b32encode k).length ≤ 104 := length_b32encode_le (by omega)
  have hxmax : (b32encode k).length ≤ bufSize .txt := hxlen.trans (by decide)
  generalize ht : (s.setText (b32encode k)).recorded .ok = t
  have htxtlen : t.txtlen.toNat = (b32encode k).length := ht ▸ Nat.mod_eq_of_lt (by omega)
  have htxt : t.bytes .txt t.txtlen.toNat = b32encode k := by
    rw [htxtlen]
    exact ht ▸ s.bytes_setBuf_self .txt hxmax
  have hdecode : b32decResult t = .ok (t.setKey k) :=
    (b32decResult_of_some (by omega) (htxt ▸ b32decode_b32encode k)).trans (if_neg (by omega))
  have hkmax : k.length ≤ bufSize .key := hklen ▸ h
  refine ⟨t, _, ?_, exec_of_ok hdecode, rfl, ?_, ?_, fun i hi hi64 => ?_⟩
  · rw [exec_of_ok (i := .b32enc) (b32encResult_of_le h), hk, ht]
  · exact (congrArg (BitVec.ofNat 7) hklen).trans (BitVec.ofNat_toNat _ _)
  · exact hklen ▸ t.bytes_setBuf_self .key hkmax
  · exact (t.byte_setBuf_same .key k hi64).trans (List.getD_eq_default _ _ (by omega))

end Sys2Proof.Machine
end

section
/-! PROOFS. SHA-1 and HMAC on byte strings: the padding, the schedule, the rounds of each block, the digest bytes and
the lengths inside HMAC (R241 to R247, R252). -/

namespace Sys2Proof.Machine

/-! ### The padded message (R241) -/

/-- The zeros of the padding leave 56 modulo 64. -/
theorem sha1PadZeros_fills (n : Nat) : (n + 1 + sha1PadZeros n) % 64 = 56 := by
  unfold sha1PadZeros
  omega

/-- Fewer zeros do not. -/
theorem sha1PadZeros_least {n j : Nat} (h : j < sha1PadZeros n) : (n + 1 + j) % 64 ≠ 56 := by
  unfold sha1PadZeros at h
  omega

theorem length_sha1Pad (m : List Byte) : (sha1Pad m).length = 64 * sha1Blocks m.length := by
  simp only [sha1Pad, sha1Blocks, sha1PadZeros, List.length_append, List.length_singleton, List.length_replicate,
    bytesBE_length]
  omega

/-- Settles O23: the pieces of the padding are the definition's, and the count of its zeros is arithmetic modulo 64. -/
theorem sha1PaddedMessage : Obligations.Sha1PaddedMessage := fun m =>
  ⟨sha1PadZeros m.length, bytesBE 8 (8 * m.length), sha1PadZeros_fills _, fun _ => sha1PadZeros_least,
    bytesBE_length _ _, fun _ => bytesBE_getD _, rfl, length_sha1Pad m⟩

/-! ### The message schedule (R245) -/

/-- The words a schedule starts from stay behind the new ones. -/
theorem extendSchedule_getD_old (n : Nat) (ws : List Word) (i : Nat) :
    (extendSchedule n ws).getD (n + i) 0 = ws.getD i 0 := by
  induction n generalizing ws i with
  | zero => rw [extendSchedule, Nat.zero_add]
  | succ n ih => rw [extendSchedule, Nat.add_right_comm, Nat.add_assoc, ih, List.getD_cons_succ]

/-- Each new word is made of the words 3, 8, 14 and 16 places behind it. -/
theorem extendSchedule_getD_new {n : Nat} (ws : List Word) {i : Nat} (h : i < n) :
    (extendSchedule n ws).getD i 0 =
      rotl 1 ((extendSchedule n ws).getD (i + 3) 0 ^^^ (extendSchedule n ws).getD (i + 8) 0 ^^^
        (extendSchedule n ws).getD (i + 14) 0 ^^^ (extendSchedule n ws).getD (i + 16) 0) := by
  induction n generalizing ws with
  | zero => omega
  | succ n ih =>
    rw [extendSchedule]
    obtain hi | rfl : i < n ∨ i = n := by omega
    · exact ih _ hi
    · simp only [extendSchedule_getD_old, List.getD_cons_succ]
      exact extendSchedule_getD_old i _ 0

/-- The schedule kept latest word first, as the model builds it. -/
def scheduleRev (blk : List Byte) : List Word := extendSchedule 64 ((List.range 16).map (blockWord blk)).reverse

theorem schedule_eq_reverse (blk : List Byte) : schedule blk = (scheduleRev blk).reverse := rfl

theorem length_scheduleRev (blk : List Byte) : (scheduleRev blk).length = 80 := by
  rw [← List.length_reverse, ← schedule_eq_reverse, schedule_length]

theorem schedule_getD (blk : List Byte) {t : Nat} (h : t < 80) :
    (schedule blk).getD t 0 = (scheduleRev blk).getD (79 - t) 0 := by
  rw [schedule_eq_reverse, List.getD_reverse _ (by rwa [length_scheduleRev]), length_scheduleRev]

/-- The first sixteen words are the block's. -/
theorem schedule_getD_block (blk : List Byte) {t : Nat} (h : t < 16) : (schedule blk).getD t 0 = blockWord blk t := by
  have hlen : ((List.range 16).map (blockWord blk)).length = 16 := by rw [List.length_map, List.length_range]
  rw [schedule_getD blk (by omega), show 79 - t = 64 + (15 - t) by omega, scheduleRev, extendSchedule_getD_old,
    List.getD_reverse _ (by omega), hlen, show 16 - 1 - (15 - t) = t by omega, List.getD_eq_getElem _ 0 (by omega),
    List.getElem_map, List.getElem_range]

/-- A word n places before word t stands n places further down. -/
theorem schedule_getD_sub (blk : List Byte) {t n : Nat} (hn : n ≤ t) (ht : t < 80) :
    (schedule blk).getD (t - n) 0 = (scheduleRev blk).getD (79 - t + n) 0 := by
  rw [schedule_getD blk (by omega), show 79 - (t - n) = 79 - t + n by omega]

/-- Settles O24: the schedule is kept latest word first, where each new word is made of the words behind it. -/
theorem sha1MessageSchedule : Obligations.Sha1MessageSchedule := by
  intro blk
  refine ⟨schedule_length blk, fun t => schedule_getD_block blk, fun t ht ht80 => ?_⟩
  have hback : ∀ n ≤ 16, (schedule blk).getD (t - n) 0 = (scheduleRev blk).getD (79 - t + n) 0 :=
    fun n hn => schedule_getD_sub blk (hn.trans ht) ht80
  rw [hback 3 (by decide), hback 8 (by decide), hback 14 (by decide), hback 16 (by decide), schedule_getD blk ht80]
  exact extendSchedule_getD_new _ (by omega)

/-! ### The round functions and constants (R244) -/

section
variable {t : Nat} (b c d : Word)

theorem round_of_lt20 (h : t < 20) : roundF t b c d = (b &&& c) ||| (~~~b &&& d) ∧ roundK t = 0x5A827999 :=
  ⟨if_pos h, if_pos h⟩

theorem round_of_lt40 (h20 : 20 ≤ t) (h : t < 40) : roundF t b c d = b ^^^ c ^^^ d ∧ roundK t = 0x6ED9EBA1 := by
  simp only [roundF, roundK, not_lt.mpr h20, h, if_true, if_false, and_self]

theorem round_of_lt60 (h40 : 40 ≤ t) (h : t < 60) :
    roundF t b c d = (b &&& c) ||| (b &&& d) ||| (c &&& d) ∧ roundK t = 0x8F1BBCDC := by
  have h20 : ¬t < 20 := by omega
  simp only [roundF, roundK, h20, not_lt.mpr h40, h, if_true, if_false, and_self]

theorem round_of_ge60 (h60 : 60 ≤ t) : roundF t b c d = b ^^^ c ^^^ d ∧ roundK t = 0xCA62C1D6 := by
  have h20 : ¬t < 20 := by omega
  have h40 : ¬t < 40 := by omega
  simp only [roundF, roundK, h20, h40, not_lt.mpr h60, if_false, and_self]

end

/-! ### The blocks in order, and the rounds of one (R246) -/

/-- The hash value after the first i blocks of the padded message. -/
def hashAfter (m : List Byte) (i : Nat) : HashState :=
  ((splitBlocks (sha1Blocks m.length) (sha1Pad m)).take i).foldl compress sha1Init

theorem hashAfter_zero (m : List Byte) : hashAfter m 0 = sha1Init := rfl

theorem hashAfter_blocks (m : List Byte) : hashAfter m (sha1Blocks m.length) = sha1Hash m := by
  rw [hashAfter, List.take_of_length_le (splitBlocks_length _ _).le, sha1Hash]

theorem hashAfter_succ {m : List Byte} {i : Nat} (h : i < sha1Blocks m.length) :
    hashAfter m (i + 1) = compress (hashAfter m i) (((sha1Pad m).drop (64 * i)).take 64) := by
  rw [hashAfter, List.take_add_one, splitBlocks_getElem? _ h, List.foldl_append, hashAfter]
  rfl

/-- The working variables of a block after its first t rounds, from the hash value h. -/
def varsAfter (h : HashState) (blk : List Byte) (t : Nat) : HashState := sha1Rounds 0 ((schedule blk).take t) h

theorem varsAfter_zero (h : HashState) (blk : List Byte) : varsAfter h blk 0 = h := rfl

/-- One more schedule word is one more round. -/
theorem varsAfter_succ (h : HashState) (blk : List Byte) {t : Nat} (ht : t < 80) :
    varsAfter h blk (t + 1) = sha1Round t ((schedule blk).getD t 0) (varsAfter h blk t) := by
  have hw : t < (schedule blk).length := by rwa [schedule_length]
  rw [varsAfter, List.take_add_one, List.getElem?_eq_getElem hw, sha1Rounds_append, List.length_take_of_le hw.le,
    Nat.zero_add, List.getD_eq_getElem _ 0 hw]
  rfl

/-- The 80 rounds are the whole schedule's. -/
theorem varsAfter_rounds (h : HashState) (blk : List Byte) : varsAfter h blk 80 = sha1Rounds 0 (schedule blk) h := by
  rw [varsAfter, List.take_of_length_le (schedule_length blk).le]

/-! ### The digest bytes (R247) -/

/-- Byte j of a word, most significant first, is its bits from 24 - 8j on. -/
theorem bytesBE_word_getD (w : Word) {j : Nat} (h : j < 4) :
    (bytesBE 4 w.toNat).getD j 0 = w.extractLsb' (24 - 8 * j) 8 := by
  apply BitVec.eq_of_toNat_eq
  rw [bytesBE_getD _ h, BitVec.extractLsb'_toNat, Nat.shiftRight_eq_div_pow, show 24 - 8 * j = 8 * (4 - 1 - j) by omega,
    Nat.pow_mul]

/-- Byte 4i + j of a list of words is byte j of word i. -/
theorem getD_flatMap_bytesBE {ws : List Word} {i j : Nat} (hi : i < ws.length) (hj : j < 4) :
    (ws.flatMap fun w => bytesBE 4 w.toNat).getD (4 * i + j) 0 = (ws.getD i 0).extractLsb' (24 - 8 * j) 8 := by
  induction ws generalizing i with
  | nil => cases hi
  | cons w ws ih =>
    rw [List.flatMap_cons]
    cases i with
    | zero =>
      rw [Nat.mul_zero, Nat.zero_add, List.getD_append _ _ _ _ (by rwa [bytesBE_length]), bytesBE_word_getD w hj,
        List.getD_cons_zero]
    | succ i =>
      rw [List.getD_append_right _ _ _ _ (by rw [bytesBE_length]; omega), bytesBE_length,
        show 4 * (i + 1) + j - 4 = 4 * i + j by omega, ih (Nat.lt_of_succ_lt_succ hi), List.getD_cons_succ]

theorem HashState.bytes_eq_flatMap (h : HashState) :
    h.bytes = [h.a, h.b, h.c, h.d, h.e].flatMap fun w => bytesBE 4 w.toNat := by
  simp [HashState.bytes]

@[simp] theorem length_sha1 (m : List Byte) : (sha1 m).length = 20 := hashState_bytes_length _

/-- Settles O25: the hash values are those after each prefix of the blocks, and the working variables those after each
prefix of the schedule. -/
theorem sha1DigestBytes : Obligations.Sha1DigestBytes := by
  refine ⟨fun t b c d => ⟨round_of_lt20 b c d, round_of_lt40 b c d, round_of_lt60 b c d,
    fun h _ => round_of_ge60 b c d h⟩, fun m => ⟨⟨hashAfter m, hashAfter_zero m, hashAfter_blocks m, fun i hi => ?_⟩,
    length_sha1 m, fun i hi j hj => ?_⟩⟩
  · refine ⟨_, varsAfter (hashAfter m i) _, rfl, varsAfter_zero _ _, fun t => varsAfter_succ _ _, ?_⟩
    rw [hashAfter_succ hi, varsAfter_rounds]
    rfl
  · rw [sha1, HashState.bytes_eq_flatMap]
    exact getD_flatMap_bytesBE hi hj

/-! ### The lengths inside HMAC (R252) -/

/-- A padded key block, keyed with either pad byte, is one block long. -/
theorem length_xorPad_hmacKeyBlock (p : Byte) {k : List Byte} (h : k.length ≤ 64) :
    (xorPad p (hmacKeyBlock k)).length = 64 := by
  simp only [xorPad, hmacKeyBlock, Config.blockSize, List.length_map, List.length_append, List.length_replicate]
  omega

/-- Settles O26: a key block is 64 bytes and a digest 20, and the block counts are arithmetic. -/
theorem hmacInnerLengths : Obligations.HmacInnerLengths := by
  intro k m _ hk hm
  refine ⟨?_, ?_, fun h => ?_, fun h => ?_, by decide, fun h => by rw [h]; decide⟩
  · rw [List.length_append, length_xorPad_hmacKeyBlock _ hk]
  · rw [List.length_append, length_xorPad_hmacKeyBlock _ hk, length_sha1]
  · unfold sha1Blocks
    omega
  · unfold sha1Blocks
    omega

end Sys2Proof.Machine
end

section
/-! PROOFS. The hash commands SHA1 and HMAC on the block (R258, R262). -/

namespace Sys2Proof.Machine

theorem State.not_msgTooLong_of_le {s : State} (h : s.msglen.toNat ≤ 64) : ¬s.msgTooLong = true :=
  fun hl => absurd (of_decide_eq_true hl) (not_lt.mpr h)

/-- A digest fills its buffer. -/
theorem State.bytes_setBuf_sha1 (s : State) (m : List Byte) :
    (s.setBuf .digest (sha1 m)).bytes .digest 20 = sha1 m := by
  have h := s.bytes_setBuf_self .digest (length_sha1 m).le
  rwa [length_sha1] at h

/-! ### SHA1 (R258) -/

theorem sha1Result_of_lt {s : State} (h : 64 < s.msglen.toNat) : sha1Result s = .error .invalidLength :=
  if_pos (decide_eq_true h)

theorem sha1Result_of_le {s : State} (h : s.msglen.toNat ≤ 64) :
    sha1Result s = .ok (s.setBuf .digest (sha1 (s.bytes .msg s.msglen.toNat))) :=
  if_neg (State.not_msgTooLong_of_le h)

/-- Settles O11: the row, the length check, and the one write of DIGEST. -/
theorem sha1Command : Obligations.Sha1Command :=
  ⟨rowDecodes_of_row (name := "SHA1") (by decide) fun _ => ⟨rfl, trivial⟩,
    fun _ h => failsWith_of_error (sha1Result_of_lt h), fun s h =>
      ⟨_, exec_of_ok (sha1Result_of_le h), s.bytes_setBuf_sha1 _, sameBytesOutside_setBuf s .digest _, rfl⟩⟩

/-! ### HMAC (R262) -/

theorem hmacResult_of_lt {s : State} (h : 64 < s.keylen.toNat ∨ 64 < s.msglen.toNat) :
    hmacResult s = .error .invalidLength :=
  if_pos ((Bool.or_eq_true _ _).mpr (h.imp decide_eq_true decide_eq_true))

/-- With both lengths in range the answer depends on the key's emptiness (R262). -/
theorem hmacResult_of_le {s : State} (hk : s.keylen.toNat ≤ 64) (hm : s.msglen.toNat ≤ 64) :
    hmacResult s = if s.keylen.toNat = 0 then .error .invalidSecretLength
      else .ok (s.setBuf .digest (hmacSha1 s.keyBytes s.msgBytes)) :=
  if_neg fun h => ((Bool.or_eq_true _ _).mp h).elim (State.not_keyTooLong_of_le hk) (State.not_msgTooLong_of_le hm)

/-- Settles O12: the row, the checks in their order, and the one write of DIGEST, whose key block is KEY and zeros. -/
theorem hmacCommand : Obligations.HmacCommand := by
  refine ⟨rowDecodes_of_row (name := "HMAC") (by decide) fun _ => ⟨rfl, trivial⟩,
    fun s h => failsWith_of_error (hmacResult_of_lt h),
    fun s hk hm => failsWith_of_error ((hmacResult_of_le (by omega) hm).trans (if_pos hk)), fun s hk1 hk hm => ?_⟩
  refine ⟨_, hmacKeyBlock s.keyBytes, exec_of_ok ((hmacResult_of_le hk hm).trans (if_neg (by omega))), ?_,
    s.bytes_setBuf_sha1 _, sameBytesOutside_setBuf s .digest _, rfl⟩
  rw [hmacKeyBlock, State.keyBytes, State.length_bytes]
  rfl

end Sys2Proof.Machine
end

section
/-! PROOFS. Dynamic truncation of a digest (R281, R282), and the decimal digits of a code (R283, R284). -/

namespace Sys2Proof.Machine

/-! ### Dynamic truncation (R281, R282) -/

/-- The low 4 bits of the last digest byte are its remainder by 16. -/
theorem truncOffset_eq (h : List Byte) : truncOffset h = (h.getD 19 0).toNat % 16 := by
  rw [truncOffset, BitVec.toNat_and]
  exact Nat.and_two_pow_sub_one_eq_mod _ 4

/-- A byte with its top bit masked off is its remainder by 128. -/
theorem toNat_and_0x7F (x : Byte) : (x &&& 0x7F).toNat = x.toNat % 128 := by
  rw [BitVec.toNat_and]
  exact Nat.and_two_pow_sub_one_eq_mod _ 7

/-- Bytes shifted to places of their own share no bit, so joining them by "or" adds them. -/
theorem or_shifted_bytes (n : Nat) (x y z : Byte) :
    n <<< 24 ||| x.toNat <<< 16 ||| y.toNat <<< 8 ||| z.toNat =
      n * 2 ^ 24 + x.toNat * 2 ^ 16 + y.toNat * 2 ^ 8 + z.toNat := by
  have hx := x.isLt
  have hy := y.isLt
  have hz := z.isLt
  have hyz : y.toNat <<< 8 + z.toNat < 2 ^ 16 := by rw [Nat.shiftLeft_eq]; omega
  have hxyz : x.toNat <<< 16 + (y.toNat <<< 8 + z.toNat) < 2 ^ 24 := by rw [Nat.shiftLeft_eq]; omega
  rw [Nat.or_assoc, Nat.or_assoc, ← Nat.shiftLeft_add_eq_or_of_lt hz, ← Nat.shiftLeft_add_eq_or_of_lt hyz,
    ← Nat.shiftLeft_add_eq_or_of_lt hxyz, Nat.shiftLeft_eq, Nat.shiftLeft_eq, Nat.shiftLeft_eq, Nat.add_assoc,
    Nat.add_assoc]

/-- Settles O27: the masks are remainders, and the four bytes share no bit. -/
theorem dynamicTruncation : Obligations.DynamicTruncation := by
  intro h hlen
  have hoffset := truncOffset_eq h
  have hlt := truncValue_lt h
  refine ⟨truncOffset h, hoffset, rfl, by omega, by omega, ?_, by omega⟩
  rw [truncValue, or_shifted_bytes, toNat_and_0x7F]

/-! ### The digits of a code (R283, R284) -/

@[simp] theorem length_asciiDigits (d n : Nat) : (asciiDigits d n).length = d := by simp [asciiDigits]

/-- The last digit is the remainder by 10, and those before it are the digits of the quotient. -/
theorem asciiDigits_succ (d n : Nat) :
    asciiDigits (d + 1) n = asciiDigits d (n / 10) ++ [BitVec.ofNat 8 (0x30 + n % 10)] := by
  rw [asciiDigits, List.range_succ, List.map_append, asciiDigits]
  congr 1
  · refine List.map_congr_left fun j hj => ?_
    have hj := List.mem_range.mp hj
    rw [show d + 1 - 1 - j = d - 1 - j + 1 by omega, Nat.pow_succ', Nat.div_div_eq_div_mul]
  · simp

theorem toNat_digit (n : Nat) : (BitVec.ofNat 8 (0x30 + n % 10)).toNat = 0x30 + n % 10 :=
  Nat.mod_eq_of_lt (by omega)

/-- Every character is a digit, "0" to "9". -/
theorem mem_asciiDigits {d n : Nat} {x : Byte} (h : x ∈ asciiDigits d n) : 0x30 ≤ x.toNat ∧ x.toNat ≤ 0x39 := by
  obtain ⟨j, -, rfl⟩ := List.mem_map.mp h
  rw [toNat_digit]
  omega

/-- The characters read back, most significant first, as the number's last d decimal digits. -/
theorem foldl_asciiDigits (d n : Nat) :
    (asciiDigits d n).foldl (fun n x => 10 * n + (x.toNat - 0x30)) 0 = n % 10 ^ d := by
  induction d generalizing n with
  | zero => exact (Nat.mod_one n).symm
  | succ d ih =>
    rw [asciiDigits_succ, List.foldl_append, ih, Nat.pow_succ', Nat.mod_mul, List.foldl_cons, List.foldl_nil,
      toNat_digit, Nat.add_sub_cancel_left, Nat.add_comm]

theorem hotpCore_code_lt (k : List Byte) (c d : Nat) : (hotpCore k c d).code < 10 ^ d := Nat.mod_lt _ (by positivity)

/-- Settles O28: the code is a remainder by 10^d, so its d digits are all it has. -/
theorem codeDigits : Obligations.CodeDigits := by
  intro k c d _
  have hlt := hotpCore_code_lt k c d
  exact ⟨rfl, Nat.le_pred_of_lt hlt, length_asciiDigits d _, fun _ => mem_asciiDigits,
    (foldl_asciiDigits d _).trans (Nat.mod_eq_of_lt hlt)⟩

end Sys2Proof.Machine
end

section
/-! PROOFS. The command HOTP on the block (R286), and TOTP with the key in KEY as HOTP at the counter of S_TIME (R285,
R312). -/

namespace Sys2Proof.Machine

/-! ### The digit count (R142) -/

theorem digitsOf_of_selects {f d : Nat} (h : selectsDigits f d) : digitsOf f = some d := by
  obtain ⟨rfl, rfl⟩ | ⟨rfl, hd⟩ := h
  · rfl
  · rw [digitsOf, if_neg (by omega), if_pos hd]

theorem digitsOf_of_invalid {f : Nat} (h : invalidDigits f) : digitsOf f = none := by
  obtain ⟨h0, h6, h7, h8⟩ := h
  rw [digitsOf, if_neg h0, if_neg (by omega)]

/-! ### The code outputs (R286, R312) -/

section
variable (s : State) (k : List Byte) (c : Nat) {d : Nat}

theorem State.bytes_setCode_digest : (s.setCode (hotpCore k c d) d).bytes .digest 20 = hmacSha1 k (bytesBE 8 c) :=
  ((s.setBuf .digest _).bytes_setBuf_other _ (by decide) (le_refl (bufSize .digest))).trans (s.bytes_setBuf_sha1 _)

theorem State.toNat_trunc_setCode :
    (s.setCode (hotpCore k c d) d).trunc.toNat = truncValue (hmacSha1 k (bytesBE 8 c)) :=
  Nat.mod_eq_of_lt (truncValue_lt _)

/-- A code of at most 8 digits fits the 27 bits of CODE (R58). -/
theorem State.toNat_code_setCode (hd : d ≤ 8) :
    (s.setCode (hotpCore k c d) d).code.toNat = (hotpCore k c d).code := by
  have hpow : 10 ^ d ≤ 10 ^ 8 := Nat.pow_le_pow_right (by decide) hd
  have hlt := hotpCore_code_lt k c d
  exact Nat.mod_eq_of_lt (by omega)

end

/-- The code outputs in memory are DIGEST and CODEA alone. -/
theorem sameBytesOutside_setCode (s : State) (o : HotpOut) (d : Nat) :
    sameBytesOutside [.digest, .codea] s (s.setCode o d) := fun a ha =>
  (sameBytesOutside_setBuf (s.setBuf .digest o.digest) .codea o.ascii a fun b hb => ha b (.tail _ hb)).trans
    (sameBytesOutside_setBuf s .digest o.digest a (List.forall_mem_singleton.mpr (ha .digest (.head _))))

/-! ### HOTP (R286) -/

theorem hotpResult_of_lt {s : State} (f : Nat) (h : 64 < s.keylen.toNat) : hotpResult f s = .error .invalidLength :=
  if_pos (decide_eq_true h)

theorem hotpResult_of_empty {s : State} (f : Nat) (h : s.keylen.toNat = 0) :
    hotpResult f s = .error .invalidSecretLength :=
  (if_neg (State.not_keyTooLong_of_le (by omega))).trans (if_pos h)

/-- With a key in range the answer depends on the digit count. -/
theorem hotpResult_of_key {s : State} (f : Nat) (h1 : 1 ≤ s.keylen.toNat) (h64 : s.keylen.toNat ≤ 64) :
    hotpResult f s = (digitsOf f).elim (.error .invalidDigits) fun d =>
      .ok (s.setCode (hotpCore s.keyBytes s.ctr.toNat d) d) := by
  rw [hotpResult, if_neg (State.not_keyTooLong_of_le h64), if_neg (by omega)]
  cases digitsOf f <;> rfl

theorem hotpResult_of_invalid {s : State} {f : Nat} (h1 : 1 ≤ s.keylen.toNat) (h64 : s.keylen.toNat ≤ 64)
    (hf : invalidDigits f) : hotpResult f s = .error .invalidDigits := by
  rw [hotpResult_of_key f h1 h64, digitsOf_of_invalid hf, Option.elim_none]

theorem hotpResult_of_selects {s : State} {f d : Nat} (h1 : 1 ≤ s.keylen.toNat) (h64 : s.keylen.toNat ≤ 64)
    (hf : selectsDigits f d) : hotpResult f s = .ok (s.setCode (hotpCore s.keyBytes s.ctr.toNat d) d) := by
  rw [hotpResult_of_key f h1 h64, digitsOf_of_selects hf, Option.elim_some]

/-- Settles O13: the bytes of the counter, the row, the checks in their order, and the code outputs. -/
theorem hotpCommand : Obligations.HotpCommand := by
  unfold Obligations.HotpCommand
  refine ⟨fun v => ⟨bytesBE_length 8 v, fun _ => bytesBE_getD v⟩,
    rowDecodes_of_row (name := "HOTP") (by decide) fun _ => ⟨rfl, rfl⟩,
    fun s f h => failsWith_of_error (hotpResult_of_lt f h),
    fun s f h => failsWith_of_error (hotpResult_of_empty f h),
    fun s f h1 h64 hf => failsWith_of_error (hotpResult_of_invalid h1 h64 hf), fun s f d h1 h64 hf => ?_⟩
  have hd : d = 6 ∨ d = 7 ∨ d = 8 := digitsOf_some (digitsOf_of_selects hf)
  refine ⟨_, _, _, exec_of_ok (hotpResult_of_selects h1 h64 hf), rfl, rfl, ?_, ?_, ?_, ?_, ?_, ?_, rfl⟩
  · exact s.bytes_setCode_digest _ _
  · exact s.toNat_trunc_setCode _ _
  · exact s.toNat_code_setCode _ _ (by omega)
  · exact s.bytes_setCode_codea _ _ (by omega)
  · exact Nat.mod_eq_of_lt (by omega)
  · exact sameBytesOutside_setCode s _ d

/-! ### TOTP with the key in KEY (R285, R312) -/

/-- The state with CTR set to the counter of S_TIME. -/
def State.atTimeCounter (s : State) : State := { s with ctr := BitVec.ofNat 64 (counterFor s.sTime) }

/-- A counter fits CTR (R49, R320). -/
theorem State.toNat_ctr_atTimeCounter (s : State) : s.atTimeCounter.ctr.toNat = counterFor s.sTime :=
  Nat.mod_eq_of_lt (lt_of_le_of_lt (counterFor_le s.sTime) (by decide))

theorem totpResult_key_of_lt {s : State} (f : Nat) (h : 64 < s.keylen.toNat) :
    totpResult f .key s = .error .invalidLength :=
  if_pos (decide_eq_true h)

/-- With a length in range the key is that of KEY, so the answer depends on its emptiness and on the digit count. -/
theorem totpResult_key_of_le {s : State} (f : Nat) (h : s.keylen.toNat ≤ 64) :
    totpResult f .key s = if s.keylen.toNat = 0 then .error .invalidSecretLength
      else (digitsOf f).elim (.error .invalidDigits) fun d =>
        .ok (s.setTotp (hotpCore s.keyBytes (counterFor s.sTime) d) d) := by
  have hlen : s.keyBytes.length = s.keylen.toNat := State.length_bytes _ _ _
  rw [totpResult, State.sourceTooLong, if_neg (State.not_keyTooLong_of_le h), ← hlen]
  cases digitsOf f <;> rfl

/-- TOTP makes HOTP's checks on the same key and digit count, and computes the code of the same counter. -/
theorem totpResult_key_agrees_hotpResult (f : Nat) (s : State) :
    (∃ e, totpResult f .key s = .error e ∧ hotpResult f s.atTimeCounter = .error e) ∨
    ∃ o d, totpResult f .key s = .ok (s.setTotp o d) ∧
      hotpResult f s.atTimeCounter = .ok (s.atTimeCounter.setCode o d) := by
  by_cases hlong : 64 < s.keylen.toNat
  · exact .inl ⟨_, totpResult_key_of_lt f hlong, hotpResult_of_lt f hlong⟩
  rw [totpResult_key_of_le f (not_lt.mp hlong)]
  by_cases hempty : s.keylen.toNat = 0
  · exact .inl ⟨_, if_pos hempty, hotpResult_of_empty f hempty⟩
  rw [if_neg hempty, hotpResult_of_key (s := s.atTimeCounter) f (Nat.pos_of_ne_zero hempty) (not_lt.mp hlong),
    s.toNat_ctr_atTimeCounter]
  cases digitsOf f with
  | none => exact .inl ⟨_, rfl, rfl⟩
  | some d => exact .inr ⟨_, d, rfl, rfl⟩

/-- Settles O35: both commands fail with one error, or write the same code outputs. -/
theorem totpIsHotpOfTimeCounter : Obligations.TotpIsHotpOfTimeCounter := by
  unfold Obligations.TotpIsHotpOfTimeCounter
  intro s f x
  obtain ⟨e, htotp, hhotp⟩ | ⟨o, d, htotp, hhotp⟩ := totpResult_key_agrees_hotpResult f s
  · exact ⟨_, _, failsWith_of_error htotp, failsWith_of_error hhotp, rfl, rfl, rfl, rfl, fun _ _ => rfl,
      fun _ _ => rfl⟩
  · exact ⟨_, _, exec_of_ok htotp, exec_of_ok hhotp, rfl, rfl, rfl, rfl, fun _ _ => rfl, fun _ _ => rfl⟩

end Sys2Proof.Machine
end

section
/-! PROOFS. The counter and the countdown of a time, and the commands that write one of them (R320 to R327). -/

namespace Sys2Proof.Machine

/-! ### The counter and the countdown (R320, R321) -/

/-- The counter never falls as time grows (R327). -/
theorem counterFor_mono {t u : DWord} (h : t.toNat ≤ u.toNat) : counterFor t ≤ counterFor u :=
  Nat.div_le_div_right h

/-- A tick adds 1 to every time but the last (R421). -/
theorem toNat_time_ticked {s : State} (h : s.time.toNat ≠ 2 ^ 64 - 1) : s.ticked.time.toNat = s.time.toNat + 1 := by
  rw [State.ticked_time]
  bv_omega

/-- Settles O37: both are the division of the time by 30, and a tick that does not wrap TIME adds 1. -/
theorem counterAndCountdown : Obligations.CounterAndCountdown := by
  refine ⟨fun t => ?_, fun _ _ => counterFor_mono, fun s hs => counterFor_mono ?_⟩
  · have hmax := counterFor_le t
    simp only [counterFor, remaining, Config.timeStep] at hmax ⊢
    omega
  · rw [State.perform, toNat_time_ticked hs]
    exact Nat.le_succ _

/-- CTR_OUT holds every counter. -/
theorem toNat_ofNat_counterFor (x : DWord) : (BitVec.ofNat 64 (counterFor x)).toNat = x.toNat / 30 :=
  Nat.mod_eq_of_lt (lt_of_le_of_lt (counterFor_le x) (by decide))

/-- REM holds every countdown. -/
theorem toNat_ofNat_remaining (x : DWord) : (BitVec.ofNat 5 (remaining x)).toNat = 30 - x.toNat % 30 :=
  Nat.mod_eq_of_lt (lt_of_le_of_lt (remaining_le x) (by decide))

/-! ### CTRFOR and REMSEC (R322, R325) -/

/-- Settles O18: the row, and the one write of CTR_OUT, which holds every counter. -/
theorem ctrforCommand : Obligations.CtrforCommand :=
  ⟨rowDecodes_of_row (name := "CTRFOR") (by decide) fun _ => ⟨rfl, rfl⟩,
    fun s _ => ⟨_, exec_of_ok rfl, toNat_ofNat_counterFor s.sTime, rfl⟩⟩

/-- Settles O19: the row, and the one write of REM, which holds every countdown. -/
theorem remsecCommand : Obligations.RemsecCommand :=
  ⟨rowDecodes_of_row (name := "REMSEC") (by decide) fun _ => ⟨rfl, rfl⟩,
    fun s _ => ⟨_, exec_of_ok rfl, toNat_ofNat_remaining s.sTime, rfl⟩⟩

end Sys2Proof.Machine
end

section
/-! PROOFS. The key TOTP and VERIFY take from either source, and the checks they make on it (R311, R312, R316). -/

namespace Sys2Proof.Machine

/-! ### The two sources of a key (R144, R311) -/

theorem State.sourceTooLong_of_invalid {s : State} {src : KeySrc} (h : sourceLengthInvalid s src) :
    s.sourceTooLong src = true := by
  cases src <;> exact decide_eq_true h

theorem State.not_sourceTooLong_of_undecodable {s : State} {src : KeySrc} (h : sourceUndecodable s src) :
    ¬s.sourceTooLong src = true := by
  obtain ⟨rfl, hlen, -⟩ := h
  exact State.not_txtTooLong_of_le hlen

/-- A text that does not decode, or decodes to too long a key, is refused with one error. -/
theorem State.keyOf_of_undecodable {s : State} {src : KeySrc} (h : sourceUndecodable s src) :
    s.keyOf src = .error .invalidSecret := by
  obtain ⟨rfl, -, hlong⟩ := h
  rw [State.keyOf, State.txtBytes]
  cases hd : b32decode (s.bytes .txt s.txtlen.toNat) with
  | none => rfl
  | some r => exact if_pos (hlong r hd)

theorem State.not_sourceTooLong_of_gives {s : State} {src : KeySrc} {k : List Byte} (h : sourceGives s src k) :
    ¬s.sourceTooLong src = true := by
  cases src with
  | key => exact State.not_keyTooLong_of_le h.1
  | txt => exact State.not_txtTooLong_of_le h.1

theorem State.keyOf_of_gives {s : State} {src : KeySrc} {k : List Byte} (h : sourceGives s src k) :
    s.keyOf src = .ok k := by
  cases src with
  | key =>
    obtain ⟨-, rfl⟩ := h
    rfl
  | txt =>
    obtain ⟨-, hd, hlen⟩ := h
    rw [State.keyOf, State.txtBytes, hd]
    exact if_neg (not_lt.mpr hlen)

/-! ### The checks on a key and a digit count (R403) -/

/-- What TOTP and VERIFY answer once they have a key: an error for an empty key, else one for an invalid digit count,
else the state that `write` makes for the digit count. `totpResult_of_gives` and `verifyResult_of_gives` tie it to
them. -/
def answerForKey (f : Nat) (k : List Byte) (write : Nat → State) : Result :=
  if k = [] then .error .invalidSecretLength
  else (digitsOf f).elim (.error .invalidDigits) fun d => .ok (write d)

section
variable {f d : Nat} {k : List Byte} {write : Nat → State}

theorem answerForKey_nil : answerForKey f [] write = .error .invalidSecretLength := rfl

theorem answerForKey_of_invalid (hk : k ≠ []) (hf : invalidDigits f) :
    answerForKey f k write = .error .invalidDigits := by
  rw [answerForKey, if_neg hk, digitsOf_of_invalid hf, Option.elim_none]

theorem answerForKey_of_selects (hk : k ≠ []) (hf : selectsDigits f d) :
    answerForKey f k write = .ok (write d) := by
  rw [answerForKey, if_neg hk, digitsOf_of_selects hf, Option.elim_some]

end

/-- Which error it answers, or for which digit count it writes, does not depend on what is written. -/
theorem answerForKey_cases (f : Nat) (k : List Byte) :
    (∃ e, (∀ write, answerForKey f k write = .error e) ∧ e ≠ .ok) ∨
    ∃ d, ∀ write, answerForKey f k write = .ok (write d) := by
  by_cases hk : k = []
  · exact .inl ⟨.invalidSecretLength, fun _ => if_pos hk, nofun⟩
  · simp only [answerForKey, if_neg hk]
    cases digitsOf f with
    | none => exact .inl ⟨.invalidDigits, fun _ => rfl, nofun⟩
    | some d => exact .inr ⟨d, fun _ => rfl⟩

end Sys2Proof.Machine
end

section
/-! PROOFS. The command TOTP with either key source, and a text key against the key B32DEC leaves (R311, R312). -/

namespace Sys2Proof.Machine

/-! ### What TOTP answers (R312) -/

section
variable {s : State} {src : KeySrc} (f : Nat)

theorem totpResult_of_lengthInvalid (h : sourceLengthInvalid s src) : totpResult f src s = .error .invalidLength :=
  if_pos (State.sourceTooLong_of_invalid h)

theorem totpResult_of_undecodable (h : sourceUndecodable s src) : totpResult f src s = .error .invalidSecret := by
  rw [totpResult, if_neg (State.not_sourceTooLong_of_undecodable h), State.keyOf_of_undecodable h]

theorem totpResult_of_gives {k : List Byte} (h : sourceGives s src k) :
    totpResult f src s = answerForKey f k fun d => s.setTotp (hotpCore k (counterFor s.sTime) d) d := by
  rw [totpResult, if_neg (State.not_sourceTooLong_of_gives h), State.keyOf_of_gives h, answerForKey]
  cases k with
  | nil => rfl
  | cons x k => cases digitsOf f <;> rfl

end

/-- Settles O14: the row, the checks in their order, the code outputs as HOTP's, and the counter and the countdown. -/
theorem totpCommand : Obligations.TotpCommand := by
  unfold Obligations.TotpCommand
  refine ⟨rowDecodes_of_row (name := "TOTP") (by decide) fun _ => ⟨rfl, rfl, rfl, rfl⟩,
    fun s f x src h => failsWith_of_error (totpResult_of_lengthInvalid f h),
    fun s f x src h => failsWith_of_error (totpResult_of_undecodable f h),
    fun s f x src h => failsWith_of_error ((totpResult_of_gives f h).trans answerForKey_nil),
    fun s f x src k h hk hf => failsWith_of_error ((totpResult_of_gives f h).trans (answerForKey_of_invalid hk hf)),
    fun s f d x src k h hk hf => ?_⟩
  have hd : d = 6 ∨ d = 7 ∨ d = 8 := digitsOf_some (digitsOf_of_selects hf)
  refine ⟨_, _, _, exec_of_ok ((totpResult_of_gives f h).trans (answerForKey_of_selects hk hf)), rfl, rfl,
    toNat_ofNat_counterFor s.sTime, toNat_ofNat_remaining s.sTime, ?_, ?_, ?_, ?_, ?_, ?_, rfl⟩
  · exact s.bytes_setCode_digest _ _
  · exact s.toNat_trunc_setCode _ _
  · exact s.toNat_code_setCode _ _ (by omega)
  · exact s.bytes_setCode_codea _ _ (by omega)
  · exact Nat.mod_eq_of_lt (by omega)
  · exact sameBytesOutside_setCode s _ d

/-! ### A text key as the key B32DEC leaves (R220, R311) -/

/-- What B32DEC answers, in the terms of a text key: it refuses a length out of range, it refuses what TOTP refuses as a
secret, and else it leaves in KEY the key the text gives. -/
theorem b32decResult_cases (s : State) :
    b32decResult s = .error .invalidLength ∨
    (sourceUndecodable s .txt ∧ ∃ e, b32decResult s = .error e ∧ e ≠ .ok) ∨
    ∃ r, sourceGives s .txt r ∧ r.length ≤ 64 ∧ b32decResult s = .ok (s.setKey r) := by
  by_cases hlen : s.txtlen.toNat ≤ 128
  · cases hd : b32decode (s.bytes .txt s.txtlen.toNat) with
    | none => exact .inr (.inl ⟨⟨rfl, hlen, by simp [hd]⟩, _, b32decResult_of_none hlen hd, nofun⟩)
    | some r =>
      have hsome := b32decResult_of_some hlen hd
      by_cases hr : 64 < r.length
      · exact .inr (.inl ⟨⟨rfl, hlen, by simp [hd, hr]⟩, _, hsome.trans (if_pos hr), nofun⟩)
      · exact .inr (.inr ⟨r, ⟨hlen, hd, not_lt.mp hr⟩, not_lt.mp hr, hsome.trans (if_neg hr)⟩)
  · exact .inl (b32decResult_of_lt (not_le.mp hlen))

/-- The key B32DEC writes is the key KEY then gives (R220). -/
theorem sourceGives_key_setKey (s : State) {r : List Byte} (h : r.length ≤ 64) : sourceGives (s.setKey r) .key r := by
  have hlen : (s.setKey r).keylen.toNat = r.length := Nat.mod_eq_of_lt (by omega)
  refine ⟨by omega, ?_⟩
  rw [hlen]
  exact (s.bytes_setBuf_self .key h).symm

section
variable (s t : State) (o : HotpOut) (d : Nat)

/-- The code outputs in DIGEST do not depend on the state they are written to. -/
theorem sameBuffer_setCode_digest : sameBuffer .digest (s.setCode o d) (t.setCode o d) := fun i hi => by
  have hdigest : ∀ u : State, (u.setCode o d).byte .digest i = o.digest.getD i 0 := fun u =>
    ((u.setBuf .digest o.digest).byte_setBuf_other o.ascii (by decide) hi).trans (u.byte_setBuf_same .digest _ hi)
  rw [hdigest, hdigest]

/-- The code outputs in CODEA do not depend on the state they are written to. -/
theorem sameBuffer_setCode_codea : sameBuffer .codea (s.setCode o d) (t.setCode o d) := fun _ hi =>
  ((t.setBuf .digest _).byte_setBuf_same .codea _ hi).trans ((s.setBuf .digest _).byte_setBuf_same .codea _ hi).symm

/-- The code outputs are not in KEY. -/
theorem sameBuffer_key_setCode : sameBuffer .key s (s.setCode o d) := fun _ hi =>
  ((s.setBuf .digest o.digest).byte_setBuf_other o.ascii (by decide) hi).trans
    (s.byte_setBuf_other o.digest (by decide) hi)

end

/-- TOTP answers alike for one key and one time, whatever the source and the state. -/
theorem totpResult_alike_of_gives {s t : State} {src src' : KeySrc} {k : List Byte} (f : Nat)
    (hs : sourceGives s src k) (ht : sourceGives t src' k) (htime : t.sTime = s.sTime) :
    (∃ e, totpResult f src s = .error e ∧ totpResult f src' t = .error e ∧ e ≠ .ok) ∨
    ∃ o d, totpResult f src s = .ok (s.setTotp o d) ∧ totpResult f src' t = .ok (t.setTotp o d) := by
  rw [totpResult_of_gives f hs, totpResult_of_gives f ht, htime]
  obtain ⟨e, herror, hne⟩ | ⟨d, hok⟩ := answerForKey_cases f k
  · exact .inl ⟨e, herror _, herror _, hne⟩
  · exact .inr ⟨_, d, hok _, hok _⟩

/-- Settles O36: where B32DEC leaves a key, TOTP answers alike for that key from either source; where it refuses the
text, the text is undecodable. -/
theorem textKeyActsAsDecodedKey : Obligations.TextKeyActsAsDecodedKey := by
  unfold Obligations.TextKeyActsAsDecodedKey
  intro s t f x h
  obtain hdec | ⟨hundec, e, hdec, hne⟩ | ⟨r, hgives, hlen, hdec⟩ := b32decResult_cases s
  · cases (failsWith_of_error (i := .b32dec) hdec).symm.trans h
    exact ⟨nofun, nofun⟩
  · cases (failsWith_of_error (i := .b32dec) hdec).symm.trans h
    exact ⟨fun hok => absurd hok hne, fun _ => failsWith_of_error (totpResult_of_undecodable f hundec)⟩
  · cases (exec_of_ok (i := .b32dec) hdec).symm.trans h
    refine ⟨fun _ => ?_, nofun⟩
    have hkey : sourceGives ((s.setKey r).recorded .ok) .key r := sourceGives_key_setKey s hlen
    obtain ⟨e, htxt, hraw, hne⟩ | ⟨o, d, htxt, hraw⟩ := totpResult_alike_of_gives f hgives hkey rfl
    · exact ⟨_, _, failsWith_of_error htxt, failsWith_of_error hraw, rfl, fun hok => absurd hok hne, rfl,
        fun _ _ => rfl⟩
    · exact ⟨_, _, exec_of_ok htxt, exec_of_ok hraw, rfl, fun _ => ⟨rfl, rfl, rfl, rfl, rfl,
        sameBuffer_setCode_digest _ s o d, sameBuffer_setCode_codea _ s o d⟩, rfl, sameBuffer_key_setCode s o d⟩

end Sys2Proof.Machine
end

section
/-! PROOFS. The command VERIFY: its comparison, its window of counters, and its checks (R316, R317). -/

namespace Sys2Proof.Machine

/-! ### The verdict (R316, R317) -/

/-- `ct_eq` decides equality (R317). -/
theorem ctEq_iff {a b : List Byte} : ctEq a b = true ↔ a = b := by
  refine ⟨fun h => ?_, fun h => by simp [ctEq, h]⟩
  obtain ⟨hlen, hbytes⟩ := (Bool.and_eq_true _ _).mp h
  have hlen := of_decide_eq_true hlen
  refine List.ext_getElem hlen.symm fun i ha hb => ?_
  have hi := beq_iff_eq.mp (List.all_eq_true.mp hbytes i (List.mem_range.mpr ha))
  rwa [List.getD_eq_getElem _ 0 ha, List.getD_eq_getElem _ 0 hb] at hi

/-- One counter matches where it is not below 0 and the candidate is its code. -/
theorem matchAt_iff {key : List Byte} {d : Nat} {cand : List Byte} {k : Int} :
    matchAt key d cand k = true ↔ ∃ n : Nat, k = n ∧ (hotpCore key n d).ascii = cand := by
  cases k with
  | ofNat n => simp [matchAt, ctEq_iff]
  | negSucc n => simp [matchAt]

/-- A verdict gathered by "or" is that of some entry of the list, or the one it began with. -/
theorem foldl_or_iff {α : Type} (p : α → Bool) (l : List α) (b : Bool) :
    l.foldl (fun m j => m || p j) b = true ↔ b = true ∨ ∃ j ∈ l, p j = true := by
  induction l generalizing b with
  | nil => simp
  | cons j l ih => rw [List.foldl_cons, ih, Bool.or_eq_true, List.exists_mem_cons_iff, or_assoc]

/-- The verdict over a window: some counter from c - w to c + w, none below 0, has the candidate as its code (R316). -/
theorem windowMatch_iff {key : List Byte} {d : Nat} {cand : List Byte} {c w : Nat} :
    windowMatch key d cand c w = true ↔
      ∃ n : Nat, (c : Int) - w ≤ n ∧ n ≤ c + w ∧ (hotpCore key n d).ascii = cand := by
  simp only [windowMatch, foldl_or_iff, matchAt_iff, List.bind_eq_flatMap, List.pure_def, List.mem_flatMap,
    List.mem_range, List.mem_singleton]
  constructor
  · rintro (hf | ⟨_, ⟨j, hj, rfl⟩, n, hn, hcode⟩)
    · cases hf
    · exact ⟨n, by omega, by omega, hcode⟩
  · rintro ⟨n, hlo, hhi, hcode⟩
    exact .inr ⟨_, ⟨n + w - c, by omega, rfl⟩, n, by omega, hcode⟩

/-! ### VERIFY (R316) -/

theorem State.not_candTooLong_of_le {s : State} (h : s.candlen.toNat ≤ 8) : ¬s.candTooLong = true :=
  fun hl => absurd (of_decide_eq_true hl) (not_lt.mpr h)

section
variable {s : State} {src : KeySrc} (f w : Nat)

theorem verifyResult_of_lengthInvalid (h : sourceLengthInvalid s src ∨ 8 < s.candlen.toNat) :
    verifyResult f src w s = .error .invalidLength :=
  if_pos ((Bool.or_eq_true _ _).mpr (h.imp State.sourceTooLong_of_invalid decide_eq_true))

/-- With both lengths in range VERIFY passes its first check. -/
theorem not_lengthsTooLong (hsrc : ¬s.sourceTooLong src = true) (hc : s.candlen.toNat ≤ 8) :
    ¬(s.sourceTooLong src || s.candTooLong) = true :=
  fun h => ((Bool.or_eq_true _ _).mp h).elim hsrc (State.not_candTooLong_of_le hc)

theorem verifyResult_of_undecodable (hc : s.candlen.toNat ≤ 8) (h : sourceUndecodable s src) :
    verifyResult f src w s = .error .invalidSecret := by
  rw [verifyResult, if_neg (not_lengthsTooLong (State.not_sourceTooLong_of_undecodable h) hc),
    State.keyOf_of_undecodable h]

theorem verifyResult_of_gives {k : List Byte} (hc : s.candlen.toNat ≤ 8) (h : sourceGives s src k) :
    verifyResult f src w s =
      answerForKey f k fun d => s.setVerdict (windowMatch k d s.candBytes (counterFor s.sTime) w) := by
  rw [verifyResult, if_neg (not_lengthsTooLong (State.not_sourceTooLong_of_gives h) hc), State.keyOf_of_gives h,
    answerForKey]
  cases k with
  | nil => rfl
  | cons x k => cases digitsOf f <;> rfl

end

/-- Settles O15: the row, the checks in their order, the verdict over the window, and the one counter written. -/
theorem verifyCommand : Obligations.VerifyCommand := by
  unfold Obligations.VerifyCommand
  refine ⟨rowDecodes_of_row (name := "VERIFY") (by decide) fun _ => ⟨rfl, rfl, rfl, rfl, rfl⟩,
    fun s f w x src h => failsWith_of_error (verifyResult_of_lengthInvalid f w h),
    fun s f w x src hc h => failsWith_of_error (verifyResult_of_undecodable f w hc h),
    fun s f w x src hc h => failsWith_of_error ((verifyResult_of_gives f w hc h).trans answerForKey_nil),
    fun s f w x src k hc h hk hf =>
      failsWith_of_error ((verifyResult_of_gives f w hc h).trans (answerForKey_of_invalid hk hf)),
    fun s f d w x src k hc h hk hf => ?_⟩
  exact ⟨_, _, exec_of_ok ((verifyResult_of_gives f w hc h).trans (answerForKey_of_selects hk hf)), rfl,
    windowMatch_iff, toNat_ofNat_counterFor s.sTime, rfl⟩

end Sys2Proof.Machine
end

section
/-! PROOFS. The control commands ZERO and NOP, and the reset values ZERO leaves (R350, R351, R354). -/

namespace Sys2Proof.Machine

/-! ### ZERO (R350) -/

/-- A byte outside every buffer stays. -/
theorem sameBytesOutside_zeroed (s : State) : sameBytesOutside allBuffers s s.zeroed := by
  intro a ha
  have hout : ¬allBuffers.any (inBuffer a) = true := fun h => by
    obtain ⟨b, hb, hin⟩ := List.any_eq_true.mp h
    exact Bool.false_ne_true ((ha b hb).symm.trans hin)
  rw [State.zeroed_mem, Memory.read_clearBuffers, if_neg hout]

/-- Settles O20: the row, and ZERO's writes, which reach every byte of a buffer and none outside. -/
theorem zeroCommand : Obligations.ZeroCommand :=
  ⟨rowDecodes_of_row (name := "ZERO") (by decide) fun _ => ⟨rfl, trivial⟩,
    fun s => ⟨_, exec_of_ok rfl, fun _ _ => s.byte_zeroed, sameBytesOutside_zeroed s, rfl⟩⟩

/-! ### NOP (R354) -/

/-- Settles O21: the row, and the record alone, whose OP is that of the latched word. -/
theorem nopCommand : Obligations.NopCommand := by
  refine ⟨rowDecodes_of_row (name := "NOP") (by decide) fun _ => ⟨rfl, trivial⟩, fun _ => exec_of_ok rfl,
    fun s hop => ?_⟩
  have hlastop : s.cmdLatch.extractLsb' 0 4 = 0xF := hop
  rw [exec_of_ok (i := .nop) rfl, State.recorded, hlastop]

/-! ### The block after ZERO (R351) -/

/-- Memory that lists bytes of the buffers alone lists none once they are cleared: the reset contents (R450). -/
theorem Memory.clearBuffers_of_inBuffers {m : Memory} (h : Memory.inBuffers m) : Memory.clearBuffers m = [] :=
  List.filter_eq_nil_iff.mpr fun c hc => by simp [h c hc]

theorem b32encode_nil : b32encode [] = [] := List.length_eq_zero_iff.mp (length_b32encode [])

/-- An empty key encodes as the empty text (R210). -/
theorem b32encResult_of_empty {s : State} (h : s.keylen.toNat = 0) : b32encResult s = .ok (s.setText []) := by
  have hkey : s.bytes .key s.keylen.toNat = [] := List.length_eq_zero_iff.mp ((State.length_bytes _ _ _).trans h)
  rw [b32encResult_of_le (by omega), hkey, b32encode_nil]

/-- Settles O22: the invariant keeps memory inside the buffers, so clearing them leaves the reset contents; KEYLEN is 0,
so HOTP has no key and B32ENC no byte to encode. -/
theorem zeroRestoresReset : Obligations.ZeroRestoresReset := by
  intro s h
  have hempty : (s.zeroed.recorded .ok).keylen.toNat = 0 := rfl
  refine ⟨_, exec_of_ok rfl, ?_, fun f => failsWith_of_error (hotpResult_of_empty f hempty),
    _, exec_of_ok (b32encResult_of_empty hempty), rfl, rfl⟩
  rw [State.zeroed, Memory.clearBuffers_of_inBuffers h.inBuffers]
  rfl

end Sys2Proof.Machine
end

section
/-! PROOFS. A step always has a next state (R400), and what a completion leaves (R151, R350). -/

namespace Sys2Proof.Machine

/-! ### No step stops the block (R400) -/

/-- Settles O10: a completion, an idle step and an event from outside each answer a next state. -/
theorem noStepStops : Obligations.NoStepStops := by
  intro s
  cases hi : s.inputs with
  | nil =>
    cases hb : s.busy with
    | true => rw [step_busy_of_no_event hi hb]; exact completion_next s
    | false => exact ⟨s, step_idle hi hb⟩
  | cons e es =>
    by_cases he : e = .complete
    · subst he
      cases hb : s.busy with
      | true => rw [step_complete_busy hi hb]; exact completion_next _
      | false => exact ⟨_, step_complete_idle hi hb⟩
    · exact ⟨_, step_of_event hi he⟩

/-! ### The end of a command (R65, R67, R151) -/

/-- A command ends with the record made on the fields it never writes and on whatever it wrote. -/
theorem exec_frame {i : Instr} {s t : State} (h : exec i s = .next t) : ∃ u e, t = (s.commandFrame u).finish e := by
  rcases exec_cases h with ⟨u, hu, rfl⟩ | ⟨e, -, rfl⟩
  · exact ⟨u, .ok, by rw [← resultOf_frame hu]⟩
  · exact ⟨s, e, rfl⟩

/-- So does a completion, the latched word being a command or not. -/
theorem completion_frame {s t : State} (h : completion s = .next t) : ∃ u e, t = (s.commandFrame u).finish e := by
  cases hd : decode s.cmdLatch with
  | ok i => exact exec_frame ((completion_of_decode hd).symm.trans h)
  | error r =>
    rw [completion_of_reject hd] at h
    cases h
    exact ⟨s, .illegalCmd, rfl⟩

end Sys2Proof.Machine
end

section
/-! PROOFS. The time base: a tick, alone and during a command, the halves of TIME on the bus, and the live countdown (R421
to R426). -/

namespace Sys2Proof.Machine

/-! ### A tick (R421, R423) -/

/-- The time after a tick (R421). -/
theorem State.toNat_ticked_time (s : State) : s.ticked.time.toNat = (s.time.toNat + 1) % 2 ^ 64 :=
  BitVec.toNat_add s.time 1

/-- WIN after a tick: as before, or set at a multiple of 30 (R423). -/
theorem State.ticked_win_iff (s : State) : s.ticked.win = true ↔ s.win = true ∨ s.ticked.time.toNat % 30 = 0 := by
  rw [State.ticked_win, Bool.or_eq_true, decide_eq_true_iff]
  rfl

/-- Settles O48: the tick is its two fields, and the registers of TIME are never locked and their writes leave WIN. -/
theorem tickAdvancesTime : Obligations.TickAdvancesTime := by
  unfold Obligations.TickAdvancesTime
  refine fun s => ⟨s.toNat_ticked_time, ?_, rfl, fun v => ⟨?_, ?_⟩⟩
  · rw [← s.toNat_ticked_time]
    exact s.ticked_win_iff
  · rw [s.perform_write_unlocked (off := 0x030) v rfl rfl]
    rfl
  · rw [s.perform_write_unlocked (off := 0x034) v rfl rfl]
    rfl

/-! ### A tick during a command (R310, R424) -/

theorem map_ticked_ite (c : Prop) [Decidable c] (a b : Result) :
    (if c then a else b).map State.ticked = if c then a.map State.ticked else b.map State.ticked := apply_ite ..

theorem State.ticked_sourceTooLong (s : State) (src : KeySrc) : s.ticked.sourceTooLong src = s.sourceTooLong src := by
  cases src <;> rfl

theorem State.ticked_keyOf (s : State) (src : KeySrc) : s.ticked.keyOf src = s.keyOf src := by
  cases src <;> rfl

/-- Every result function answers the same after a tick, and leaves the tick's TIME and WIN. -/
theorem resultOf_ticked (i : Instr) (s : State) : resultOf i s.ticked = (resultOf i s).map State.ticked := by
  cases i with
  | sha1 =>
    simp only [resultOf, sha1Result, map_ticked_ite]
    rfl
  | hmac =>
    simp only [resultOf, hmacResult, map_ticked_ite]
    rfl
  | hotp f =>
    simp only [resultOf, hotpResult, map_ticked_ite]
    cases digitsOf f <;> rfl
  | totp f _ src =>
    simp only [resultOf, totpResult, map_ticked_ite, State.ticked_sourceTooLong, State.ticked_keyOf]
    cases s.keyOf src with
    | error e => rfl
    | ok k =>
      simp only [map_ticked_ite]
      cases digitsOf f <;> rfl
  | verify f _ src w =>
    simp only [resultOf, verifyResult, map_ticked_ite, State.ticked_sourceTooLong, State.ticked_keyOf]
    cases s.keyOf src with
    | error e => rfl
    | ok k =>
      simp only [map_ticked_ite]
      cases digitsOf f <;> rfl
  | b32enc =>
    simp only [resultOf, b32encResult, map_ticked_ite]
    rfl
  | b32dec =>
    have htxt : s.ticked.txtBytes = s.txtBytes := rfl
    simp only [resultOf, b32decResult, map_ticked_ite, htxt]
    cases b32decode s.txtBytes with
    | none => rfl
    | some r =>
      simp only [map_ticked_ite]
      rfl
  | ctrfor _ => rfl
  | remsec _ => rfl
  | zero => rfl
  | nop => rfl

theorem commit_ticked (s : State) (r : Result) : s.ticked.commit (r.map State.ticked) = (s.commit r).ticked := by
  cases r <;> rfl

/-- A tick before the completion may as well come after it. -/
theorem exec_ticked {i : Instr} {s t : State} (h : exec i s = .next t) : exec i s.ticked = .next t.ticked := by
  rw [exec_eq_commit] at h ⊢
  cases h
  rw [resultOf_ticked, commit_ticked]

/-- Settles O49: the result functions read neither TIME nor WIN, and no event from outside changes an output. -/
theorem tickCommutesWithCompletion : Obligations.TickCommutesWithCompletion :=
  fun _ _ t h => ⟨exec_ticked h, rfl, t.perform_sameOutputs (e := .tick) (by decide), rfl⟩

/-! ### The halves of TIME on the bus (R422) -/

/-- What one tick leaves, any number of ticks leaves. -/
theorem iterate_tick_of_tick {α : Type} {f : State → α} (h : ∀ x : State, f (x.perform .tick) = f x) (n : Nat)
    (s : State) : f ((fun x : State => x.perform .tick)^[n] s) = f s := by
  induction n generalizing s with
  | zero => rfl
  | succ n ih => rw [Function.iterate_succ_apply, ih, h]

/-- A read of TIME_LO latches the high half of TIME. -/
theorem State.timeHiSnap_read_timeLo (s : State) : (s.perform (.read 32 0x030)).timeHiSnap = hiHalf s.time := by
  rw [s.perform_read (off := 0x030) rfl]
  rfl

/-- A read of TIME_HI returns the snapshot. -/
theorem State.resp_read_timeHi (s : State) : (s.perform (.read 32 0x034)).resp = okayRead s.timeHiSnap :=
  s.perform_read_resp (off := 0x034) rfl

/-- A write of TIME_LO is staged. -/
theorem State.perform_write_timeLo (s : State) (lo : Word) :
    s.perform (.write 32 0x030 lo) = { s with timeLoStage := lo, resp := okayWrite } :=
  s.perform_write_unlocked (off := 0x030) lo rfl rfl

/-- A write of TIME_HI sets TIME with the staged half. -/
theorem State.perform_write_timeHi (s : State) (hi : Word) :
    s.perform (.write 32 0x034 hi) = { s with time := hi ++ s.timeLoStage, resp := okayWrite } :=
  s.perform_write_unlocked (off := 0x034) hi rfl rfl

/-- Settles O50: no tick changes the snapshot or the staged half. -/
theorem timeHalvesConsistent : Obligations.TimeHalvesConsistent := by
  unfold Obligations.TimeHalvesConsistent
  refine fun s n => ⟨⟨loHalf s.time, hiHalf s.time, s.perform_read_resp (off := 0x030) rfl, ?_,
    hiHalf_append_loHalf s.time⟩, fun lo hi => ⟨s.perform_write_timeLo lo, ?_⟩⟩
  · rw [State.resp_read_timeHi, iterate_tick_of_tick (f := State.timeHiSnap) fun _ => rfl, s.timeHiSnap_read_timeLo]
  · rw [State.perform_write_timeHi]
    have hstage := iterate_tick_of_tick (f := State.timeLoStage) (fun _ => rfl) n (s.perform (.write 32 0x030 lo))
    rw [hstage, s.perform_write_timeLo]

/-! ### The live countdown (R425, R426) -/

/-- What NOW_REM reads. -/
theorem State.toNat_regValue_nowRem (s : State) : (s.regValue .nowRem).toNat = 30 - s.time.toNat % 30 :=
  Nat.mod_eq_of_lt (lt_of_le_of_lt (remaining_le s.time) (by decide))

/-- Settles O51: both readings are of the time, which a tick takes one further; NOW_REM is 1 just before a multiple of
30. -/
theorem countdownFollowsTicks : Obligations.CountdownFollowsTicks := by
  unfold Obligations.CountdownFollowsTicks
  refine ⟨fun s => ?_, rfl, fun s hs => ?_⟩
  · have hrem := s.toNat_regValue_nowRem
    omega
  · have htime : (s.perform .tick).time.toNat = s.time.toNat + 1 := toNat_time_ticked hs
    have hwin : (s.perform .tick).win = true ↔ s.win = true ∨ (s.perform .tick).time.toNat % 30 = 0 := s.ticked_win_iff
    rw [State.toNat_regValue_nowRem, State.toNat_regValue_nowRem, htime]
    rw [htime] at hwin
    refine ⟨fun h => ⟨by omega, hwin.mpr (.inr (by omega))⟩, fun h => ⟨by omega, ?_⟩⟩
    have hmult : ¬(s.time.toNat + 1) % 30 = 0 := by omega
    exact Bool.eq_iff_iff.mpr (hwin.trans (or_iff_left hmult))

end Sys2Proof.Machine
end

section
/-! PROOFS. The interrupt output: a level of STATUS and IE, and the events that move it (R410, R411). -/

namespace Sys2Proof.Machine

/-! ### The level (R410) -/

/-- irq by the pairs of a flag and its enable. -/
theorem State.irq_iff (s : State) :
    s.irq = true ↔ s.done = true ∧ s.doneIe = true ∨ s.win = true ∧ s.winIe = true ∨ s.drop = true ∧ s.dropIe = true := by
  simp only [State.irq, Bool.or_eq_true, Bool.and_eq_true, or_assoc]

/-- Bits 1 to 3 of a word, which hold the flags and their enables (R44, R45). -/
theorem and_flagMask_ne_zero_iff (w : Word) :
    w &&& 0xE ≠ 0 ↔ w.getLsbD 1 = true ∨ w.getLsbD 2 = true ∨ w.getLsbD 3 = true := by
  have hmask : (0xE : Word) = BitVec.twoPow 32 1 ||| BitVec.twoPow 32 2 ||| BitVec.twoPow 32 3 := by decide
  have key : ∀ a b c : Bool,
      ((if a then BitVec.twoPow 32 1 else 0) ||| (if b then BitVec.twoPow 32 2 else 0) |||
        (if c then BitVec.twoPow 32 3 else 0)) ≠ 0 ↔ a = true ∨ b = true ∨ c = true := by decide
  rw [hmask, BitVec.and_or_distrib_left, BitVec.and_or_distrib_left, BitVec.and_twoPow, BitVec.and_twoPow,
    BitVec.and_twoPow]
  exact key _ _ _

/-- IE has no bit outside bits 1 to 3 (R45). -/
theorem State.ieWord_and_flagMask (s : State) : s.ieWord &&& 0xE = s.ieWord := by
  have key : ∀ a b c : Bool,
      (0#28 ++ flagBit a ++ flagBit b ++ flagBit c ++ 0#1 : Word) &&& 0xE =
        0#28 ++ flagBit a ++ flagBit b ++ flagBit c ++ 0#1 := by decide
  exact key s.dropIe s.winIe s.doneIe

/-- A flag of STATUS stands where the word has a 1. -/
theorem State.statusWord_and_flags_iff (s : State) (v : Word) :
    s.statusWord &&& v &&& 0xE ≠ 0 ↔
      s.done = true ∧ v.getLsbD 1 = true ∨ s.win = true ∧ v.getLsbD 2 = true ∨ s.drop = true ∧ v.getLsbD 3 = true := by
  obtain ⟨-, hdone, hwin, hdrop⟩ := s.statusWord_flags
  simp only [and_flagMask_ne_zero_iff, BitVec.getLsbD_and, hdone, hwin, hdrop, Bool.and_eq_true]

/-- irq by the two words a bus master reads. -/
theorem State.irq_iff_words (s : State) : s.irq = true ↔ s.statusWord &&& s.ieWord ≠ 0 := by
  obtain ⟨-, hdone, hwin, hdrop, -⟩ := s.ieWord_bits
  rw [← s.ieWord_and_flagMask, ← BitVec.and_assoc, s.statusWord_and_flags_iff, hdone, hwin, hdrop]
  exact s.irq_iff

/-! ### What moves the level (R410, R411) -/

/-- irq after a write of IE: some flag stands where the word has a 1. -/
theorem State.irq_write_ie_iff (s : State) (v : Word) :
    (s.perform (.write 32 0x010 v)).irq = true ↔ s.statusWord &&& v &&& 0xE ≠ 0 := by
  rw [s.perform_write_unlocked (off := 0x010) v rfl rfl, State.irq_iff, s.statusWord_and_flags_iff]
  rfl

/-- irq after every flag was cleared. -/
theorem State.irq_clear_flags (s : State) : (s.perform (.write 32 0x00C 0xE)).irq = false := by
  have hclear : (s.clearFlags 0xE).irq = false := by simp [State.irq]
  rw [s.perform_write_unlocked (off := 0x00C) 0xE rfl rfl]
  exact hclear

/-- The end of a command raises irq where DONE is enabled. -/
theorem State.irq_of_exec {i : Instr} {s t : State} (h : exec i s = .next t) (hie : s.doneIe = true) :
    t.irq = true := by
  obtain ⟨u, e, rfl⟩ := exec_frame h
  exact (State.irq_iff _).mpr (.inl ⟨rfl, hie⟩)

/-- Settles O53: the level by the flags and by the two words, and each event that moves it. -/
theorem interruptLevel : Obligations.InterruptLevel := by
  unfold Obligations.InterruptLevel
  refine fun s => ⟨s.irq_iff, s.irq_iff_words, s.irq_clear_flags, ?_, fun v => (s.irq_write_ie_iff v).mpr,
    fun i t => State.irq_of_exec⟩
  exact Bool.eq_false_iff.mpr fun h => (s.irq_write_ie_iff 0).mp h (by simp)

end Sys2Proof.Machine
end

section
/-! PROOFS. The events of one clock cycle in their order: the access, the tick, the completion (R432). -/

namespace Sys2Proof.Machine

/-! ### The events to come (R114) -/

/-- The state with other events to come. -/
def State.withInputs (s : State) (es : List Event) : State := { s with inputs := es }

@[simp] theorem State.withInputs_busy (s : State) (es : List Event) : (s.withInputs es).busy = s.busy := rfl

/-- No register shows the events to come. -/
theorem State.regValue_withInputs (s : State) (es : List Event) (r : Reg) :
    (s.withInputs es).regValue r = s.regValue r := by
  cases r <;> rfl

theorem State.writeReg_withInputs (s : State) (es : List Event) (r : Reg) (v : Word) :
    (s.withInputs es).writeReg r v = (s.writeReg r v).withInputs es := by
  cases r with
  | buf b j =>
    cases hb : bufIsOperand b with
    | true =>
      rw [State.writeReg_operandWord _ j v hb, State.writeReg_operandWord _ j v hb]
      rfl
    | false => rw [State.writeReg_outputWord _ j v hb, State.writeReg_outputWord _ j v hb]
  | _ => rfl

/-- An event has the same effect whatever events come after it. -/
theorem State.perform_withInputs (s : State) (es : List Event) (e : Event) :
    (s.withInputs es).perform e = (s.perform e).withInputs es := by
  cases e with
  | read bits off =>
    simp only [State.perform, State.busRead, State.afterRead, State.regValue_withInputs]
    split
    · split <;> rfl
    · rfl
  | write bits off v =>
    simp only [State.perform, State.busWrite, State.busWriteReg, State.writeReg_withInputs, State.withInputs_busy]
    split
    · split <;> rfl
    · rfl
  | tick => rfl
  | complete => rfl
  | reset => rfl

/-- An event leaves the events to come. -/
theorem State.perform_inputs (s : State) (e : Event) : (s.perform e).inputs = s.inputs := by
  have h := congrArg State.inputs (s.perform_withInputs s.inputs e)
  exact h

/-! ### A cycle as a run of steps -/

theorem run_succ_of_step {k : Nat} {s t : State} (h : step s = .next t) :
    Host.Core.run Sys2Proof.core (k + 1) s = Host.Core.run Sys2Proof.core k t := by
  have hcore : Sys2Proof.core.step s = .next t := h
  simp only [Host.Core.run, hcore]

theorem run_one (s : State) : Host.Core.run Sys2Proof.core 1 s = step s := by
  obtain ⟨t, ht⟩ := noStepStops s
  exact (run_succ_of_step ht).trans ht.symm

/-- A cycle with a tick: the tick is of the state its access left. -/
theorem State.cycle_tick (s : State) (access : Event) : s.cycle access true = (s.perform access).ticked := rfl

/-- The access, the tick and the completion of one cycle, as events to come, are taken in three steps. -/
theorem run_cycleEvents {s : State} {e : Event} (hb : s.busy = true) (hi : s.inputs = []) (hr : e ≠ .reset)
    (hc : e ≠ .complete) :
    Host.Core.run Sys2Proof.core 3 (s.withInputs (cycleEvents e true true)) = completion (s.cycle e true) := by
  have haccess : step (s.withInputs (cycleEvents e true true)) =
      .next ((s.perform e).withInputs [.tick, .complete]) :=
    (step_of_event rfl hc).trans (congrArg _ (s.perform_withInputs [.tick, .complete] e))
  have htick : step ((s.perform e).withInputs [.tick, .complete]) =
      .next ((s.perform e).ticked.withInputs [.complete]) :=
    step_of_event (s := (s.perform e).withInputs _) rfl (by decide)
  have hcomplete : step ((s.perform e).ticked.withInputs [.complete]) =
      completion ((s.perform e).ticked.withInputs []) :=
    step_complete_busy rfl ((s.perform_keepsCommand hb hr).busy.trans hb)
  have hnone : (s.perform e).inputs = [] := (s.perform_inputs e).trans hi
  have hlast : (s.perform e).ticked.withInputs [] = s.cycle e true := by
    rw [State.cycle_tick, ← hnone]
    rfl
  rw [run_succ_of_step haccess, run_succ_of_step htick, run_one, hcomplete, hlast]

/-! ### The cases of one cycle (R432) -/

/-- A locked write of a cycle while BUSY = 1 sets DROP and leaves the command in flight, whether the cycle has a tick or
not. -/
theorem State.cycle_write_dropped (s : State) {off : BitVec 12} (v : Word) (tk : Bool) (hb : s.busy = true)
    (hl : lockedOffset off.toNat) :
    (s.cycle (.write 32 off v) tk).drop = true ∧ s.KeepsCommand (s.cycle (.write 32 off v) tk) := by
  rw [State.cycle, s.perform_write_dropped v hl.1 (isLocked_of_lockedOffset hl) hb]
  cases tk with
  | true => exact ⟨rfl, .of_eq⟩
  | false => exact ⟨rfl, .of_eq⟩

/-- Settles O52: the access acts on the state before the tick, the tick on what the access left, and the completion on
what both left. -/
theorem sameCycleOrder : Obligations.SameCycleOrder := by
  unfold Obligations.SameCycleOrder
  refine ⟨fun s t v tk _ hc => ?_, fun s v h => ?_, fun s t off v tk hb hl hc => ?_, fun s v hb => ?_, fun s => ?_,
    fun s v => ?_, fun s e => run_cycleEvents⟩
  · obtain ⟨u, e, rfl⟩ := completion_frame hc
    rfl
  · rw [State.cycle_tick, s.perform_write_unlocked (off := 0x00C) v rfl rfl]
    exact (State.ticked_win_iff _).mpr (.inr h)
  · obtain ⟨hdrop, hkeeps⟩ := s.cycle_write_dropped v tk hb hl
    obtain ⟨u, e, rfl⟩ := completion_frame hc
    exact ⟨hdrop, hkeeps.cmdLatch, hkeeps.operands⟩
  · rw [State.cycle_tick, s.perform_write_cmd v hb, s.accept_eq v]
    rfl
  · rw [State.cycle_tick, s.perform_read (off := 0x030) rfl]
    exact ⟨rfl, rfl, rfl⟩
  · rw [State.cycle_tick, s.perform_write_timeHi v]
    rfl

end Sys2Proof.Machine
end

section
/-! PROOFS. Reset and what a careful master meets: the reset values and the invariant at reset (R450), an idle block
that waits for CMD (R67, R451), and accesses that are never dropped (R465, R466). -/

namespace Sys2Proof.Machine

/-! ### Reset (R450) -/

/-- Settles O57, by the base case of the invariant. -/
theorem resetMeetsInvariant : Obligations.ResetMeetsInvariant := reset_inv

/-- A register reads the same after a reset event as in the reset state, whatever events are still to come. -/
theorem State.regValue_perform_reset (s : State) (r : Reg) :
    (s.perform .reset).regValue r = State.reset.regValue r :=
  State.reset.regValue_withInputs s.inputs r

/-- Every register but ID, PARAM and NOW_REM has the reset value 0. -/
theorem regValue_reset_of_ne {r : Reg} (hid : r ≠ .id) (hparam : r ≠ .param) (hnow : r ≠ .nowRem) :
    State.reset.regValue r = 0 := by
  cases r with
  | id => exact absurd rfl hid
  | param => exact absurd rfl hparam
  | nowRem => exact absurd rfl hnow
  | buf b j =>
    have hzero : le32 0 0 0 0 = 0 := by decide
    exact hzero
  | _ => decide

/-- An aligned offset other than that of a register holds another register. -/
theorem regAt_ne_of_ne {off o : BitVec 12} (hoff : off.toNat % 4 = 0) (ho : o.toNat % 4 = 0)
    (hr : regAt o.toNat ≠ .reserved) (h : off ≠ o) : regAt off.toNat ≠ regAt o.toNat :=
  fun hreg => h (BitVec.eq_of_toNat_eq (regAt_injective hoff ho hr hreg))

/-- Each aligned offset reads its reset value after a reset. -/
theorem State.regValue_regAt_perform_reset (s : State) {off : BitVec 12} (h : off.toNat % 4 = 0) :
    (s.perform .reset).regValue (regAt off.toNat) =
      if off = 0x000 then 0x4B430007 else if off = 0x004 then 0x1E804040 else if off = 0x038 then 30 else 0 := by
  rw [s.regValue_perform_reset]
  split_ifs with hid hparam hnow
  · subst hid
    rfl
  · subst hparam
    rfl
  · subst hnow
    rfl
  · exact regValue_reset_of_ne (regAt_ne_of_ne (o := 0x000) h rfl (by decide) hid)
      (regAt_ne_of_ne (o := 0x004) h rfl (by decide) hparam) (regAt_ne_of_ne (o := 0x038) h rfl (by decide) hnow)

/-! ### An idle block waits for CMD (R67, R451) -/

/-- No register write but that of CMD changes BUSY. -/
theorem State.writeReg_busy (s : State) {r : Reg} (v : Word) (h : r ≠ .cmd) : (s.writeReg r v).busy = s.busy := by
  cases r with
  | cmd => exact absurd rfl h
  | buf b j =>
    cases hb : bufIsOperand b with
    | true => rw [s.writeReg_operandWord j v hb]; rfl
    | false => rw [s.writeReg_outputWord j v hb]
  | _ => rfl

/-- While BUSY = 0 no event but a supported write of CMD sets it. -/
theorem State.perform_idle (s : State) {e : Event} (hb : s.busy = false) (he : ∀ v, e ≠ .write 32 0x008 v) :
    (s.perform e).busy = false := by
  cases e with
  | read bits off =>
    rw [State.perform, State.busRead_frame]
    exact hb
  | write bits off v =>
    by_cases hs : supported bits off = true
    · obtain ⟨rfl, halign⟩ := supported_iff.mp hs
      have hoff : off ≠ 0x008 := fun h => he v (by rw [h])
      rw [s.perform_write_idle v halign hb]
      exact (s.writeReg_busy v (regAt_ne_of_ne (o := 0x008) halign rfl (by decide) hoff)).trans hb
    · rw [s.perform_write_unsupported v hs]
      exact hb
  | tick => exact hb
  | complete => exact hb
  | reset => rfl

/-- An idle step performs the oldest event to come; a completion, named or due to no event to come, has no effect. -/
theorem step_idle_performs {s t : State} (hb : s.busy = false) (h : step s = .next t) :
    ∃ e es, t = (s.withInputs es).perform e ∧ (e = .complete ∨ s.inputs = e :: es) := by
  rcases step_cases h with ⟨-, hbusy, -⟩ | ⟨-, -, rfl⟩ | ⟨es, -, hbusy, -⟩ | ⟨es, -, -, rfl⟩ | ⟨e, es, hi, -, rfl⟩
  · exact absurd (hb.symm.trans hbusy) Bool.false_ne_true
  · exact ⟨.complete, t.inputs, rfl, .inl rfl⟩
  · exact absurd (hb.symm.trans hbusy) Bool.false_ne_true
  · exact ⟨.complete, es, rfl, .inl rfl⟩
  · exact ⟨e, es, rfl, .inr hi⟩

/-- Settles O58: the reset values offset by offset, and an idle step as one event that is no write of CMD. -/
theorem resetValues : Obligations.ResetValues := by
  unfold Obligations.ResetValues
  refine ⟨fun s off => s.regValue_regAt_perform_reset, fun s => ⟨rfl, rfl, rfl, rfl, rfl, rfl, rfl⟩,
    fun s e => s.perform_idle, fun s t hb hcmd h => ?_⟩
  obtain ⟨e, es, rfl, he⟩ := step_idle_performs hb h
  have hwrite : ∀ v, e ≠ .write 32 0x008 v := by
    rintro v rfl
    exact he.elim Event.noConfusion (hcmd v es)
  refine ⟨(s.withInputs es).perform_idle hb hwrite, fun hreset => ?_⟩
  have hne : e ≠ .reset := by
    rintro rfl
    exact he.elim Event.noConfusion fun hi => hreset (by rw [hi]; rfl)
  have hrecord := (s.withInputs es).perform_keepsRecord hne
  exact ⟨(s.withInputs es).perform_sameOutputs hne, hrecord.err, hrecord.lastop⟩

/-! ### Careful masters (R465, R466) -/

/-- A careful read is supported (R103). -/
theorem supported_of_careful_read {s : State} {bits : Nat} {off : BitVec 12}
    (h : carefulEvent s (.read bits off) = true) : bits = 32 ∧ off.toNat % 4 = 0 :=
  supported_iff.mp (Bool.and_eq_true_iff.mp h).1

/-- A careful write is made: it is supported, and no running command locks its register (R465). -/
theorem State.perform_write_careful {s : State} {bits : Nat} {off : BitVec 12} {v : Word}
    (h : carefulEvent s (.write bits off v) = true) :
    s.perform (.write bits off v) = { s.writeReg (regAt off.toNat) v with resp := okayWrite } := by
  obtain ⟨hs, hlock⟩ := Bool.and_eq_true_iff.mp h
  obtain ⟨rfl, halign⟩ := supported_iff.mp hs
  cases hb : s.busy with
  | false => exact s.perform_write_idle v halign hb
  | true =>
    refine s.perform_write_unlocked v halign ?_
    simpa [hb] using hlock

/-- A careful event does not set DROP (R106). -/
theorem State.drop_of_drop_perform_careful {s : State} {e : Event} (h : carefulEvent s e = true)
    (hd : (s.perform e).drop = true) : s.drop = true := by
  cases e with
  | read bits off => rwa [State.perform, State.busRead_frame] at hd
  | write bits off v =>
    rw [State.perform_write_careful h] at hd
    exact State.drop_of_drop_writeReg hd
  | tick => exact hd
  | complete => exact hd
  | reset => cases hd

/-- Settles O59: a careful read is supported and a careful write is made. -/
theorem carefulEventsNeverDrop : Obligations.CarefulEventsNeverDrop := by
  unfold Obligations.CarefulEventsNeverDrop
  refine ⟨fun s e => State.drop_of_drop_perform_careful, fun s bits off h => ?_, fun s bits off v h => ?_⟩
  · obtain ⟨rfl, halign⟩ := supported_of_careful_read h
    exact s.perform_read_resp halign
  · rw [State.perform_write_careful h]

end Sys2Proof.Machine
end
